-- ==== Sys2Proof/Word.lean ====
section
/-! DEFINITION. The widths of the machine's values and the register slot (10_state.md R21, R22). -/

namespace Sys2Proof

/-- One byte of a serialised bytecode unit (20_memory.md R63). -/
abbrev Byte := BitVec 8

/-- One instruction word, 64 bits (30_encoding.md R90). -/
abbrev Word := BitVec 64

/-- A slot's payload, 64 bits: a two's-complement integer or a binary64 pattern (10_state.md R21). -/
abbrev Payload := BitVec 64

/-- The tag stored with a slot (10_state.md R22). -/
inductive Tag where
  | invalid | int | float
  /-- Reserved for the SIMD family; no rule ever writes it (10_state.md R26). -/
  | vec
deriving DecidableEq, Repr

/-- A register slot: a tag with its payload (10_state.md R21). An `Invalid` slot's payload has no
meaning and no rule reads it, so none is stored (log 8); a vector slot's layout is in no source. -/
inductive Slot where
  | invalid
  | int (payload : Payload)
  | float (payload : Payload)
  | vec
deriving DecidableEq, Repr

/-- The tag of a slot (10_state.md R22). -/
def Slot.tag : Slot → Tag
  | .invalid => .invalid
  | .int _ => .int
  | .float _ => .float
  | .vec => .vec

end Sys2Proof
end

