-- ==== Sys2Proof/Config.lean ====
section
/-! DEFINITION. What an implementation or its host fixes, and the values the spec leaves free. -/

namespace Sys2Proof

/-- The constants of a VM instance, fixed by the host before the run (00_scope.md R6, 10_state.md R42). -/
structure Config where
  /-- `MAX_DEPTH`, the most frames the call stack may hold. -/
  maxDepth : Nat
  /-- `REGFILE_SIZE`, the number of slots of the arena. -/
  regfileSize : Nat
  /-- `ENTRY_WINDOW`, the size of the outermost frame's window. -/
  entryWindow : Nat
deriving DecidableEq, Repr

/-- DESIGN CHOICE (log 1), unsafe where a claim leans on the numbers: the spec leaves the three
constants open; these are the values of 95_test_vectors.md's conventions. -/
def Config.standard : Config := { maxDepth := 8, regfileSize := 64, entryWindow := 8 }

/-- FREE VALUE (log 6), safe: the sign of the `n`-th NaN the machine draws, which 43_float_arithmetic.md
R193 leaves unspecified. -/
opaque Config.nanSign : Nat → Bool

/-- FREE VALUE (log 6), safe: the fraction of the `n`-th NaN the machine draws, less one; a NaN's 52 fraction
bits are any but zero (43_float_arithmetic.md R193). -/
opaque Config.nanFraction : Nat → Fin (2 ^ 52 - 2 + 1)

/-- FREE PARAMETER (log 16), safe: the text the host shows for an emission, the open parameter
`render` of 00_scope.md R6 (40_dispatch.md R141). -/
opaque Config.render : Slot → String

end Sys2Proof
end

