-- ==== Sys2Proof/Machine/State.lean ====
section
/-! DEFINITION. The architectural state of one VM instance (10_state.md R20), the loaded unit and the
configuration it runs under, and the state after reset (R45). -/

namespace Sys2Proof.Machine

/-- The kinds of a constant entry (20_memory.md R65). -/
inductive ConstKind where
  | int | float | jump
deriving DecidableEq, Repr

/-- A constant entry `(kind, value, window, nret)` (20_memory.md R65). -/
structure Const where
  kind : ConstKind
  value : Payload
  /-- Required window size of the function; only `Call` reads it. -/
  window : Nat
  /-- Number of values the function returns; only `Call` reads it. -/
  nret : Nat
deriving DecidableEq, Repr

/-- A frame record (10_state.md R31). Its `link` is the next frame of the stack (log 9). -/
structure Frame where
  /-- Index of the next instruction of this frame, counted in words (R27). -/
  ip : Nat
  /-- Arena index of local register 0. -/
  base : Nat
  /-- Number of registers of the window. -/
  size : Nat
  /-- Number of values the caller expects. -/
  nret : Nat
  /-- Local index, in the caller's window, where return value 0 goes. -/
  retdst : Nat
  /-- Instruction index that absolute jump targets are relative to. -/
  codeBase : Nat
deriving DecidableEq, Repr

/-- The six fault kinds (60_exceptions.md R261). -/
inductive FaultKind where
  | loadFault | indexFault | typeFault | arithmeticFault | stackOverflowFault | decodeFault
deriving DecidableEq, Repr

/-- The completion result (10_state.md R40, 60_exceptions.md R269). -/
inductive Completion where
  | normal (values : List Slot)
  | fault (kind : FaultKind) (ip depth : Nat)
deriving DecidableEq, Repr

/-- The dispatcher's two states (10_state.md R39). -/
inductive RunState where
  | running | halted
deriving DecidableEq, Repr

/-- The state of one VM instance. -/
structure State where
  /-- The instruction store; CODE_LEN is its length (20_memory.md R61; log 5). -/
  code : List Word
  /-- The constant pool; POOL_LEN is its length (20_memory.md R65; log 5). -/
  pool : List Const
  /-- `MAX_DEPTH` (10_state.md R42; log 5). -/
  maxDepth : Nat
  /-- `ENTRY_WINDOW` (10_state.md R42; log 5). -/
  entryWindow : Nat
  /-- The register file; REGFILE_SIZE is its length (10_state.md R23). -/
  rf : List Slot
  /-- The call stack, the active frame first (10_state.md R30; log 9). -/
  stack : List Frame
  /-- The dispatcher state (10_state.md R39). -/
  run : RunState
  /-- The completion result, meaningful only while halted (10_state.md R40; log 4). -/
  result : Completion
  /-- The print log, oldest emission first (10_state.md R41). -/
  out : List Slot
  /-- The MODEL's own: how many NaN draws have been taken (43_float_arithmetic.md R193; log 6). -/
  nanDraws : Nat
deriving DecidableEq, Repr

/-- Why a step stops outside the spec's own faults, which are next states (60_exceptions.md R268). -/
inductive Fault where
  /-- The dispatcher is running and the call stack is empty. Raised by every instruction and by the
  step; 10_state.md R30 says this state never exists. Safe. -/
  | noActiveFrame
deriving DecidableEq, Repr

/-- Why a step is refused. -/
inductive Refusal where
  /-- `exec`'s arm has no meaning for the instruction yet; no arm answers so now. Safe. -/
  | notModelled (mnemonic : String)
deriving DecidableEq, Repr

/-- The outermost frame as reset makes it (10_state.md R45); `nret` and `retdst` are never read in it
(DESIGN CHOICE, log 3). -/
def Frame.outermost (entryWindow : Nat) : Frame :=
  { ip := 0, base := 0, size := entryWindow, nret := 0, retdst := 0, codeBase := 0 }

/-- The state after reset under a configuration and a unit (10_state.md R45, 70_reset_and_hazards.md R301). -/
def State.fresh (cfg : Config) (code : List Word) (pool : List Const) : State :=
  { code := code
    pool := pool
    maxDepth := cfg.maxDepth
    entryWindow := cfg.entryWindow
    rf := List.replicate cfg.regfileSize .invalid
    stack := [Frame.outermost cfg.entryWindow]
    run := .running
    result := .normal []
    out := []
    nanDraws := 0 }

/-- The machine right after reset, with no unit in the instruction store and the pool (log 1, log 2). -/
def State.reset : State := State.fresh Config.standard [] []

end Sys2Proof.Machine
end

