-- ==== Sys2Proof/Machine/Flags.lean ====
section
/-! DEFINITION. The hardware has no flags (10_state.md R38). What stands in their place: the `Int` 1 or 0
a comparison writes, and the boolean a guard register is read as. -/

namespace Sys2Proof.Machine

/-- The slot a comparison writes (44_comparison.md R200). -/
def boolSlot (holds : Bool) : Slot := .int (if holds then 1 else 0)

/-- The boolean interpretation of an `Int` payload: non-zero is true (10_state.md R37). -/
def truthOf (v : Payload) : Bool := decide (v ≠ 0)

end Sys2Proof.Machine
end

