-- ==== Sys2Proof/Syntax.lean ====
section
/-! DEFINITION. The 27 instructions of 30_encoding.md R97, with the operands R99 and R110 name. Register
and constant indices, counts and targets are unsigned integers, offsets signed ones; which values an
encoding can carry is WellFormed's business (R101). -/

namespace Sys2Proof

/-- One constructor per row of spec/opcode_table.json. -/
inductive Instr where
  | nop
  | print (reg : Nat)
  | load (write index : Nat)
  | add (write reg2 reg3 : Nat)
  | sub (write reg2 reg3 : Nat)
  | mult (write reg2 reg3 : Nat)
  | div (write reg2 reg3 : Nat)
  | mod (write reg2 reg3 : Nat)
  | neg (write reg2 : Nat)
  | fAdd (write reg2 reg3 : Nat)
  | fDiv (write reg2 reg3 : Nat)
  | lt (write reg2 reg3 : Nat)
  | fLt (write reg2 reg3 : Nat)
  | jmp (target : Nat)
  | jmpT (reg target : Nat)
  | jmpF (reg target : Nat)
  | jmpC (index : Nat)
  | jmpTC (reg index : Nat)
  | jmpFC (reg index : Nat)
  | rJmp (offset : Int)
  | rJmpT (reg : Nat) (offset : Int)
  | rJmpF (reg : Nat) (offset : Int)
  | rJmpC (index : Nat)
  | rJmpTC (reg index : Nat)
  | rJmpFC (reg index : Nat)
  | call (count start func : Nat)
  | ret (count start : Nat)
deriving DecidableEq, Repr

end Sys2Proof
end

