-- ==== Sys2Proof/WellFormed.lean ====
section
/-! DEFINITION. Which instructions have an encoding: every operand fits the field its shape gives it
(30_encoding.md R101). Indices are not compared with any container here. -/

namespace Sys2Proof

/-- An unsigned operand fits a field of `width` bits (30_encoding.md R101). -/
def fitsUnsigned (width v : Nat) : Bool := decide (v < 2 ^ width)

/-- A signed offset fits a field of `width` bits as two's complement (30_encoding.md R101). -/
def fitsSigned (width : Nat) (v : Int) : Bool :=
  decide (-(2 ^ (width - 1)) ≤ v) && decide (v < 2 ^ (width - 1))

/-- Three operands of shape C, 16 bits each (30_encoding.md R94). -/
def fitsC (a b c : Nat) : Bool := fitsUnsigned 16 a && fitsUnsigned 16 b && fitsUnsigned 16 c

/-- Two operands of shape B, 24 and 32 bits (30_encoding.md R93). -/
def fitsB (a b : Nat) : Bool := fitsUnsigned 24 a && fitsUnsigned 32 b

/-- Every operand fits its field (30_encoding.md R97, R99, R101). -/
def Instr.wellFormed : Instr → Bool
  | .nop => true
  | .print reg => fitsUnsigned 56 reg
  | .load write index => fitsB write index
  | .add write reg2 reg3 => fitsC write reg2 reg3
  | .sub write reg2 reg3 => fitsC write reg2 reg3
  | .mult write reg2 reg3 => fitsC write reg2 reg3
  | .div write reg2 reg3 => fitsC write reg2 reg3
  | .mod write reg2 reg3 => fitsC write reg2 reg3
  | .neg write reg2 => fitsUnsigned 16 write && fitsUnsigned 16 reg2
  | .fAdd write reg2 reg3 => fitsC write reg2 reg3
  | .fDiv write reg2 reg3 => fitsC write reg2 reg3
  | .lt write reg2 reg3 => fitsC write reg2 reg3
  | .fLt write reg2 reg3 => fitsC write reg2 reg3
  | .jmp target => fitsUnsigned 56 target
  | .jmpT reg target => fitsB reg target
  | .jmpF reg target => fitsB reg target
  | .jmpC index => fitsUnsigned 56 index
  | .jmpTC reg index => fitsB reg index
  | .jmpFC reg index => fitsB reg index
  | .rJmp offset => fitsSigned 56 offset
  | .rJmpT reg offset => fitsUnsigned 24 reg && fitsSigned 32 offset
  | .rJmpF reg offset => fitsUnsigned 24 reg && fitsSigned 32 offset
  | .rJmpC index => fitsUnsigned 56 index
  | .rJmpTC reg index => fitsB reg index
  | .rJmpFC reg index => fitsB reg index
  | .call count start func => fitsC count start func
  | .ret count start => fitsUnsigned 16 count && fitsUnsigned 16 start

end Sys2Proof
end

