-- ==== Sys2Proof/Decode.lean ====
section
/-! DEFINITION. The Instruction Codec: the raw decoder of 30_encoding.md R100, the opcode map R97, the
decoder of a word into an instruction, the encoder R101, and the byte order R63. -/

namespace Sys2Proof

/-! ## Bit fields -/

/-- `w[hi:lo]`: the unsigned value of bits `hi` down to `lo` (00_scope.md R7). -/
def bitsOf (w : Word) (hi lo : Nat) : Nat := w.toNat / 2 ^ lo % 2 ^ (hi + 1 - lo)

/-- `signed(v)` of a field of `width` bits: two's complement of the field's own width (00_scope.md R8,
30_encoding.md R99). -/
def signedField (width v : Nat) : Int := if v < 2 ^ (width - 1) then (v : Int) else (v : Int) - 2 ^ width

/-- `trunc_width(z)`: the value of `width` bits congruent to `z` modulo `2^width` (00_scope.md R8). -/
def truncField (width : Nat) (z : Int) : Nat := (z % 2 ^ width).toNat

/-! ## Shapes and raw decoding -/

/-- The three layouts of the 56 argument bits (30_encoding.md R92 to R94). -/
inductive Shape where
  | A | B | C
deriving DecidableEq, Repr

/-- The raw argument fields of a word, as its shape cuts them (30_encoding.md R100). -/
inductive Fields where
  | shapeA (arg : Nat)
  | shapeB (a b : Nat)
  | shapeC (a b c : Nat)
deriving DecidableEq, Repr

/-- The shape some fields have. -/
def Fields.shape : Fields → Shape
  | .shapeA _ => .A
  | .shapeB _ _ => .B
  | .shapeC _ _ _ => .C

/-- Field `arg` of shape A. -/
def Fields.arg : Fields → Nat
  | .shapeA arg => arg
  | .shapeB _ _ => 0
  | .shapeC _ _ _ => 0

/-- Field `a` of shape B or C. -/
def Fields.a : Fields → Nat
  | .shapeA _ => 0
  | .shapeB a _ => a
  | .shapeC a _ _ => a

/-- Field `b` of shape B or C. -/
def Fields.b : Fields → Nat
  | .shapeA _ => 0
  | .shapeB _ b => b
  | .shapeC _ b _ => b

/-- Field `c` of shape C. -/
def Fields.c : Fields → Nat
  | .shapeA _ => 0
  | .shapeB _ _ => 0
  | .shapeC _ _ c => c

/-- `shape(opcode)`: the table of 30_encoding.md R97 for the 27 assigned values, A for every other (R95). -/
def shapeOf (opcode : Nat) : Shape :=
  match opcode with
  | 0x02 => .B
  | 0x10 => .C
  | 0x11 => .C
  | 0x12 => .C
  | 0x13 => .C
  | 0x14 => .C
  | 0x15 => .C
  | 0x20 => .C
  | 0x21 => .C
  | 0x30 => .C
  | 0x31 => .C
  | 0x41 => .B
  | 0x42 => .B
  | 0x45 => .B
  | 0x46 => .B
  | 0x49 => .B
  | 0x4A => .B
  | 0x4D => .B
  | 0x4E => .B
  | 0x50 => .C
  | 0x51 => .C
  | _ => .A

/-- The opcode byte, `w[7:0]` (30_encoding.md R91). -/
def opcodeOf (w : Word) : Nat := bitsOf w 7 0

/-- The fields of a word under a shape (30_encoding.md R92 to R94). -/
def fieldsOf (w : Word) : Shape → Fields
  | .A => .shapeA (bitsOf w 63 8)
  | .B => .shapeB (bitsOf w 31 8) (bitsOf w 63 32)
  | .C => .shapeC (bitsOf w 23 8) (bitsOf w 39 24) (bitsOf w 55 40)

/-- `decode(w)` of 30_encoding.md R100: total, reads no state, gives the opcode, and the fields in the
shape the opcode selects. -/
def decodeRaw (w : Word) : Nat × Fields := (opcodeOf w, fieldsOf w (shapeOf (opcodeOf w)))

/-! ## Words to instructions -/

/-- Why bytes or a word give no instruction. -/
inductive DecodeError where
  /-- The opcode byte is none of the 27 assigned values (30_encoding.md R106). Safe. -/
  | unassignedOpcode (opcode : Nat)
  /-- Fewer than the 8 bytes of one word (20_memory.md R63). Safe. -/
  | truncatedWord
deriving DecidableEq, Repr

/-- The instruction an opcode and its fields stand for (30_encoding.md R97, R99). -/
def assemble (opcode : Nat) (f : Fields) : Except DecodeError Instr :=
  match opcode with
  | 0x00 => .ok .nop
  | 0x01 => .ok (.print f.arg)
  | 0x02 => .ok (.load f.a f.b)
  | 0x10 => .ok (.add f.a f.b f.c)
  | 0x11 => .ok (.sub f.a f.b f.c)
  | 0x12 => .ok (.mult f.a f.b f.c)
  | 0x13 => .ok (.div f.a f.b f.c)
  | 0x14 => .ok (.mod f.a f.b f.c)
  | 0x15 => .ok (.neg f.a f.b)
  | 0x20 => .ok (.fAdd f.a f.b f.c)
  | 0x21 => .ok (.fDiv f.a f.b f.c)
  | 0x30 => .ok (.lt f.a f.b f.c)
  | 0x31 => .ok (.fLt f.a f.b f.c)
  | 0x40 => .ok (.jmp f.arg)
  | 0x41 => .ok (.jmpT f.a f.b)
  | 0x42 => .ok (.jmpF f.a f.b)
  | 0x44 => .ok (.jmpC f.arg)
  | 0x45 => .ok (.jmpTC f.a f.b)
  | 0x46 => .ok (.jmpFC f.a f.b)
  | 0x48 => .ok (.rJmp (signedField 56 f.arg))
  | 0x49 => .ok (.rJmpT f.a (signedField 32 f.b))
  | 0x4A => .ok (.rJmpF f.a (signedField 32 f.b))
  | 0x4C => .ok (.rJmpC f.arg)
  | 0x4D => .ok (.rJmpTC f.a f.b)
  | 0x4E => .ok (.rJmpFC f.a f.b)
  | 0x50 => .ok (.call f.a f.b f.c)
  | 0x51 => .ok (.ret f.a f.b)
  | n => .error (.unassignedOpcode n)

/-- The instruction a word stands for, or the error that names its unassigned opcode
(30_encoding.md R104, R106). -/
def decode (w : Word) : Except DecodeError Instr := assemble (decodeRaw w).1 (decodeRaw w).2

/-! ## Instructions to words -/

/-- The opcode value of an instruction (30_encoding.md R97). -/
def Instr.opcode : Instr → Nat
  | .nop => 0x00
  | .print _ => 0x01
  | .load _ _ => 0x02
  | .add _ _ _ => 0x10
  | .sub _ _ _ => 0x11
  | .mult _ _ _ => 0x12
  | .div _ _ _ => 0x13
  | .mod _ _ _ => 0x14
  | .neg _ _ => 0x15
  | .fAdd _ _ _ => 0x20
  | .fDiv _ _ _ => 0x21
  | .lt _ _ _ => 0x30
  | .fLt _ _ _ => 0x31
  | .jmp _ => 0x40
  | .jmpT _ _ => 0x41
  | .jmpF _ _ => 0x42
  | .jmpC _ => 0x44
  | .jmpTC _ _ => 0x45
  | .jmpFC _ _ => 0x46
  | .rJmp _ => 0x48
  | .rJmpT _ _ => 0x49
  | .rJmpF _ _ => 0x4A
  | .rJmpC _ => 0x4C
  | .rJmpTC _ _ => 0x4D
  | .rJmpFC _ _ => 0x4E
  | .call _ _ _ => 0x50
  | .ret _ _ => 0x51

/-- The operands in their fields; an unused field is zero (30_encoding.md R96, R97, R101). -/
def Instr.fields : Instr → Fields
  | .nop => .shapeA 0
  | .print reg => .shapeA reg
  | .load write index => .shapeB write index
  | .add write reg2 reg3 => .shapeC write reg2 reg3
  | .sub write reg2 reg3 => .shapeC write reg2 reg3
  | .mult write reg2 reg3 => .shapeC write reg2 reg3
  | .div write reg2 reg3 => .shapeC write reg2 reg3
  | .mod write reg2 reg3 => .shapeC write reg2 reg3
  | .neg write reg2 => .shapeC write reg2 0
  | .fAdd write reg2 reg3 => .shapeC write reg2 reg3
  | .fDiv write reg2 reg3 => .shapeC write reg2 reg3
  | .lt write reg2 reg3 => .shapeC write reg2 reg3
  | .fLt write reg2 reg3 => .shapeC write reg2 reg3
  | .jmp target => .shapeA target
  | .jmpT reg target => .shapeB reg target
  | .jmpF reg target => .shapeB reg target
  | .jmpC index => .shapeA index
  | .jmpTC reg index => .shapeB reg index
  | .jmpFC reg index => .shapeB reg index
  | .rJmp offset => .shapeA (truncField 56 offset)
  | .rJmpT reg offset => .shapeB reg (truncField 32 offset)
  | .rJmpF reg offset => .shapeB reg (truncField 32 offset)
  | .rJmpC index => .shapeA index
  | .rJmpTC reg index => .shapeB reg index
  | .rJmpFC reg index => .shapeB reg index
  | .call count start func => .shapeC count start func
  | .ret count start => .shapeC count start 0

/-- A word from its opcode and fields, every unused bit zero (30_encoding.md R92 to R94, R96). -/
def packWord (opcode : Nat) : Fields → Word
  | .shapeA arg => BitVec.ofNat 64 (arg * 2 ^ 8 + opcode)
  | .shapeB a b => BitVec.ofNat 64 (b * 2 ^ 32 + a * 2 ^ 8 + opcode)
  | .shapeC a b c => BitVec.ofNat 64 (c * 2 ^ 40 + b * 2 ^ 24 + a * 2 ^ 8 + opcode)

/-- The encoder's construction error (30_encoding.md R101): reported to the assembler's side, no fault
of the running core. -/
inductive ConstructionError where
  /-- An operand does not fit its field. Safe. -/
  | operandDoesNotFit
deriving DecidableEq, Repr

/-- `encode(op, args)` (30_encoding.md R101). -/
def encode (i : Instr) : Except ConstructionError Word :=
  if i.wellFormed then .ok (packWord i.opcode i.fields) else .error .operandDoesNotFit

/-! ## Words as bytes -/

/-- The 8 bytes of a word in store order, least significant first (20_memory.md R63). -/
def bytesOfWord (w : Word) : List Byte :=
  (List.range 8).map fun k => BitVec.ofNat 8 (bitsOf w (8 * k + 7) (8 * k))

/-- The unsigned value of bytes, the first the least significant (20_memory.md R63). -/
def natOfBytes : List Byte → Nat
  | [] => 0
  | b :: bs => b.toNat + 2 ^ 8 * natOfBytes bs

/-- The first word of a byte sequence and the bytes after it (20_memory.md R63). -/
def wordOfBytes (bs : List Byte) : Except DecodeError (Word × List Byte) :=
  if (bs.take 8).length = 8 then .ok (BitVec.ofNat 64 (natOfBytes (bs.take 8)), bs.drop 8)
  else .error .truncatedWord

/-- The first instruction of a byte sequence and the bytes after it. -/
def decodeBytes (bs : List Byte) : Except DecodeError (Instr × List Byte) :=
  match wordOfBytes bs with
  | .error e => .error e
  | .ok (w, rest) =>
    match decode w with
    | .error e => .error e
    | .ok i => .ok (i, rest)

/-- The words of a unit held as bytes, `n` of them: word `a` from bytes `8a` to `8a+7` (20_memory.md R63). -/
def wordsOfBytes : Nat → List Byte → Except DecodeError (List Word)
  | 0, _ => .ok []
  | n + 1, bs =>
    match wordOfBytes bs with
    | .error e => .error e
    | .ok (w, rest) =>
      match wordsOfBytes n rest with
      | .error e => .error e
      | .ok ws => .ok (w :: ws)

/-- The instruction the decoder reads from a table row's bits `w`, of which there are `nbits`; every bit
above them is zero. -/
def decodeTableWord (nbits w : Nat) : Option Instr :=
  match decodeBytes (bytesOfWord (BitVec.ofNat 64 (w % 2 ^ nbits))) with
  | .ok (i, _) => some i
  | .error _ => none

end Sys2Proof
end

