-- ==== Sys2Proof/Machine/Ops.lean ====
section
/-! DEFINITION. The named operations on the state: the four spaces, the print log, halting and taking a
fault, the loader, and the byte view of a unit. -/

namespace Sys2Proof.Machine

/-! ## Reading the state -/

/-- `CODE_LEN` (00_scope.md R6). -/
def State.codeLen (s : State) : Nat := s.code.length

/-- `POOL_LEN` (00_scope.md R6). -/
def State.poolLen (s : State) : Nat := s.pool.length

/-- `REGFILE_SIZE` (00_scope.md R6). -/
def State.regfileSize (s : State) : Nat := s.rf.length

/-- `depth`, the number of frames (10_state.md R30, R32). -/
def State.depth (s : State) : Nat := s.stack.length

/-- `F.ip`, the active frame's instruction pointer (10_state.md R27). -/
def State.ip (s : State) : Nat := (s.stack.head?.map Frame.ip).getD 0

/-- `RF[k]`, one slot of the arena (10_state.md R23; log 11 for `k` outside it). -/
def State.slotAt (s : State) (k : Nat) : Slot := s.rf.getD k .invalid

/-! ## Updates, each of one piece of state -/

/-- Replace the register file's contents. -/
def State.withRf (s : State) (rf : List Slot) : State := { s with rf := rf }

/-- Replace the call stack. -/
def State.withStack (s : State) (fs : List Frame) : State := { s with stack := fs }

/-- `halt(result)` (40_dispatch.md R134). -/
def State.halt (s : State) (r : Completion) : State := { s with run := .halted, result := r }

/-- `emit(v)`: append one emission to the print log (40_dispatch.md R141). -/
def State.emit (s : State) (v : Slot) : State := { s with out := s.out ++ [v] }

/-- Take the next NaN draw (log 6). -/
def State.nextDraw (s : State) : State := { s with nanDraws := s.nanDraws + 1 }

/-! ## Register file -/

/-- `RF[k] <- v`, one whole slot (10_state.md R34, 20_memory.md R69). -/
def State.setSlot (s : State) (k : Nat) (v : Slot) : State := s.withRf (s.rf.set k v)

/-- Set `n` slots from `dst` upward to `Invalid` (46_call_return.md R241, R242). -/
def clearSlots (rf : List Slot) (dst : Nat) : Nat → List Slot
  | 0 => rf
  | n + 1 => (clearSlots rf dst n).set (dst + n) .invalid

/-- Copy `n` whole slots from `src` upward to `dst` upward, one at a time in increasing index order
(20_memory.md R69). -/
def copySlots (rf : List Slot) (src dst : Nat) : Nat → List Slot
  | 0 => rf
  | n + 1 =>
    (copySlots rf src dst n).set (dst + n) ((copySlots rf src dst n).getD (src + n) .invalid)

/-- The `n` slots from `src` upward, in register order (46_call_return.md R245). -/
def State.slotsFrom (s : State) (src n : Nat) : List Slot :=
  (List.range n).map fun k => s.slotAt (src + k)

/-! ## Instruction pointer -/

/-- The stack with the active frame's `ip` replaced. -/
def setTopIp : List Frame → Nat → List Frame
  | [], _ => []
  | f :: rest, n => { f with ip := n } :: rest

/-- `ip <- n` in the active frame (10_state.md R28). -/
def State.setIp (s : State) (n : Nat) : State := s.withStack (setTopIp s.stack n)

/-- `ip <- ip + 1`, the default advance (40_dispatch.md R136). -/
def State.advance (s : State) : State := s.setIp (s.ip + 1)

/-! ## Call stack -/

/-- Push a frame (46_call_return.md R241). -/
def State.push (s : State) (f : Frame) : State := s.withStack (f :: s.stack)

/-- Pop the active frame (46_call_return.md R244). -/
def State.pop (s : State) : State := s.withStack s.stack.tail

/-! ## Faults -/

/-- The numeric code of a fault kind (60_exceptions.md R261). -/
def FaultKind.code : FaultKind → Nat
  | .loadFault => 1
  | .indexFault => 2
  | .typeFault => 3
  | .arithmeticFault => 4
  | .stackOverflowFault => 5
  | .decodeFault => 6

/-- TAKING A FAULT, `raise K` (60_exceptions.md R268, R269): the descriptor names the kind, the active
frame's `ip` and the depth, the dispatcher halts, nothing else changes. There is no handler and so no
return from a fault: only reset leaves `Halted` (R273). -/
def raise (k : FaultKind) (s : State) : State := s.halt (.fault k s.ip s.depth)

/-- `if p then raise k` as a check that reads only. -/
def raiseIf (p : Prop) [Decidable p] (k : FaultKind) : Except FaultKind Unit :=
  if p then .error k else .ok ()

/-- Run one instruction's rule on the active frame and the frames under it. A rule answers the whole
next state or the first fault it raises, so a faulting instruction changes nothing of its own
(60_exceptions.md R270, R271). -/
def attempt (s : State) (rule : Frame → List Frame → Except FaultKind State) :
    Host.Outcome State Fault Refusal :=
  match s.stack with
  | [] => .fault .noActiveFrame
  | f :: callers =>
    match rule f callers with
    | .ok t => .next t
    | .error k => .next (raise k s)

/-! ## Instruction store -/

/-- `Fetch(F.ip)`, or none where the stream is exhausted (20_memory.md R62, 40_dispatch.md R132). -/
def State.fetch (s : State) : Option Word := s.code[s.ip]?

/-- The dispatcher's answer to a word that is no instruction (40_dispatch.md R133). -/
def raiseDecode (s : State) : State := raise .decodeFault s

/-- The dispatcher's answer to an exhausted stream (40_dispatch.md R132). -/
def haltExhausted (s : State) : State := s.halt (.normal [])

/-- The instruction store with `w` at index `a`; indices between its end and `a` become the zero word
(the model's own, for State.withFetchWord; log 2). -/
def placeWord (code : List Word) (a : Nat) (w : Word) : List Word :=
  if a < code.length then code.set a w else code ++ List.replicate (a - code.length) 0 ++ [w]

/-- `s` ready to fetch `w` next: running, with an active frame, and `w` at that frame's `ip`. -/
def State.placeFetch (s : State) (w : Word) : State :=
  { s with
    run := .running
    stack := if s.stack.isEmpty then [Frame.outermost s.entryWindow] else s.stack
    code := placeWord s.code s.ip w }

/-! ## Reset and the load check -/

/-- The constant index an instruction references, if it references one (70_reset_and_hazards.md R303). -/
def constIndex : Instr → Option Nat
  | .load _ index => some index
  | .jmpC index => some index
  | .jmpTC _ index => some index
  | .jmpFC _ index => some index
  | .rJmpC index => some index
  | .rJmpTC _ index => some index
  | .rJmpFC _ index => some index
  | .call _ _ func => some func
  | .nop => none
  | .print _ => none
  | .add _ _ _ => none
  | .sub _ _ _ => none
  | .mult _ _ _ => none
  | .div _ _ _ => none
  | .mod _ _ _ => none
  | .neg _ _ => none
  | .fAdd _ _ _ => none
  | .fDiv _ _ _ => none
  | .lt _ _ _ => none
  | .fLt _ _ _ => none
  | .jmp _ => none
  | .jmpT _ _ => none
  | .jmpF _ _ => none
  | .rJmp _ => none
  | .rJmpT _ _ => none
  | .rJmpF _ _ => none
  | .ret _ _ => none

/-- One word passes the load check: its opcode is assigned and the constant index it references, if
any, is below `POOL_LEN` (70_reset_and_hazards.md R303). -/
def loadCheckWord (poolLen : Nat) (w : Word) : Bool :=
  match decode w with
  | .error _ => false
  | .ok i =>
    match constIndex i with
    | none => true
    | some k => decide (k < poolLen)

/-- The index of the first word that fails the load check, counting from `a`. -/
def firstBadWord (poolLen : Nat) : List Word → Nat → Option Nat
  | [], _ => none
  | w :: ws, a => if loadCheckWord poolLen w then firstBadWord poolLen ws (a + 1) else some a

/-- The load check: where it fails, the instruction index its `LoadFault` reports, 0 for an empty
sequence (70_reset_and_hazards.md R303, 60_exceptions.md R269). -/
def loadCheck (code : List Word) (pool : List Const) : Option Nat :=
  match code with
  | [] => some 0
  | w :: ws => firstBadWord pool.length (w :: ws) 0

/-- The state of a launch whose load check failed at word `a`: halted, no frame, no instruction ever
executes (70_reset_and_hazards.md R300, 60_exceptions.md R269; log 18). -/
def State.loadFailed (cfg : Config) (code : List Word) (pool : List Const) (a : Nat) : State :=
  ((State.fresh cfg code pool).withStack []).halt (.fault .loadFault a 0)

/-- The premises of a launch: the outermost frame fits and `MAX_DEPTH >= 1` (70_reset_and_hazards.md
R302), `CODE_LEN < 2^63` and `POOL_LEN <= 65536` (00_scope.md R6; log 17). -/
def launchable (cfg : Config) (code : List Word) (pool : List Const) : Bool :=
  decide (cfg.entryWindow ≤ cfg.regfileSize) && decide (1 ≤ cfg.maxDepth) &&
    decide (code.length < 2 ^ 63) && decide (pool.length ≤ 65536)

/-- Reset: create the instance, supply a unit, check it, start (70_reset_and_hazards.md R300, R301). A
configuration or unit outside the premises has no launch (R302; log 17). -/
def boot (cfg : Config) (code : List Word) (pool : List Const) : Option State :=
  if launchable cfg code pool then
    match loadCheck code pool with
    | some a => some (State.loadFailed cfg code pool a)
    | none => some (State.fresh cfg code pool)
  else none

/-! ## What the host reads -/

/-- The text the host shows for the print log (40_dispatch.md R141; log 16). -/
def State.printed (s : State) : List String := s.out.map Config.render

end Sys2Proof.Machine
end

