-- ==== Sys2Proof/Machine/Operands.lean ====
section
/-! DEFINITION. Operand access: the register primitives of 10_state.md R33 to R37, the constant read of
20_memory.md R66 and R67, and the jump resolver's targets (45_jumps.md R211, R212, R214). -/

namespace Sys2Proof.Machine

/-! ## Registers -/

/-- `chk(i)` (10_state.md R33). -/
def chk (f : Frame) (i : Nat) : Except FaultKind Unit := raiseIf (f.size ≤ i) .indexFault

/-- `x[i]`, raw read (10_state.md R33). -/
def readReg (s : State) (f : Frame) (i : Nat) : Except FaultKind Slot := do
  chk f i
  pure (s.slotAt (f.base + i))

/-- `xi[i]`, integer-typed read (10_state.md R35). -/
def readInt (s : State) (f : Frame) (i : Nat) : Except FaultKind Payload := do
  match ← readReg s f i with
  | .int v => pure v
  | .invalid => throw .typeFault
  | .float _ => throw .typeFault
  | .vec => throw .typeFault

/-- `xf[i]`, float-typed read (10_state.md R35). -/
def readFloat (s : State) (f : Frame) (i : Nat) : Except FaultKind Payload := do
  match ← readReg s f i with
  | .float v => pure v
  | .invalid => throw .typeFault
  | .int _ => throw .typeFault
  | .vec => throw .typeFault

/-- The slot `Print` emits: `Int` or `Float` (40_dispatch.md R142). -/
def readPrintable (s : State) (f : Frame) (i : Nat) : Except FaultKind Slot := do
  match ← readReg s f i with
  | .int v => pure (.int v)
  | .float v => pure (.float v)
  | .invalid => throw .typeFault
  | .vec => throw .typeFault

/-- `truth(i)` (10_state.md R37). -/
def truth (s : State) (f : Frame) (i : Nat) : Except FaultKind Bool := do
  let v ← readInt s f i
  pure (truthOf v)

/-- `x[i] <- (t, v)` (10_state.md R34). -/
def writeReg (s : State) (f : Frame) (i : Nat) (v : Slot) : Except FaultKind State := do
  chk f i
  pure (s.setSlot (f.base + i) v)

/-! ## Constants -/

/-- `K(j)` (20_memory.md R66). -/
def readConst (s : State) (j : Nat) : Except FaultKind Const :=
  match s.pool[j]? with
  | some e => .ok e
  | none => .error .indexFault

/-- The slot `Load` makes of a constant (20_memory.md R67, 41_load.md R160). -/
def constSlot (e : Const) : Except FaultKind Slot :=
  match e.kind with
  | .int => .ok (.int e.value)
  | .float => .ok (.float e.value)
  | .jump => .error .typeFault

/-- `signed(e.value)` of an entry that must be of kind `Jump` (20_memory.md R67). -/
def jumpValue (e : Const) : Except FaultKind Int :=
  match e.kind with
  | .jump => .ok e.value.toInt
  | .int => .error .typeFault
  | .float => .error .typeFault

/-! ## Jump targets -/

/-- Absolute target: relative to the start of the frame's code (45_jumps.md R211). -/
def absTarget (f : Frame) (v : Int) : Int := (f.codeBase : Int) + v

/-- Relative target: counted from the instruction after the jump (45_jumps.md R214). -/
def relTarget (f : Frame) (offset : Int) : Int := (f.ip : Int) + 1 + offset

/-- `land(t)` (45_jumps.md R212). -/
def land (s : State) (t : Int) : Except FaultKind State := do
  raiseIf (t < 0 ∨ (s.codeLen : Int) ≤ t) .indexFault
  pure (s.setIp t.toNat)

/-- A conditional jump's end: land where taken, else fall through (45_jumps.md R213). -/
def landIf (s : State) (taken : Bool) (t : Int) : Except FaultKind State :=
  if taken then land s t else .ok s.advance

end Sys2Proof.Machine
end

