-- ==== Sys2Proof/Machine/Basic.lean ====
section
/-! DEFINITION. `Nop`, `Print` (40_dispatch.md R140, R142) and `Load` (41_load.md R160). -/

namespace Sys2Proof.Machine

/-- `Nop` (40_dispatch.md R140). -/
def execNop (s : State) : Host.Outcome State Fault Refusal :=
  attempt s fun _ _ => pure s.advance

/-- `Print` (40_dispatch.md R142). -/
def execPrint (reg : Nat) (s : State) : Host.Outcome State Fault Refusal :=
  attempt s fun f _ => do
    let v ← readPrintable s f reg
    pure (s.emit v).advance

/-- `Load` (41_load.md R160). -/
def execLoad (write index : Nat) (s : State) : Host.Outcome State Fault Refusal :=
  attempt s fun f _ => do
    chk f write
    let e ← readConst s index
    let v ← constSlot e
    let t ← writeReg s f write v
    pure t.advance

end Sys2Proof.Machine
end

