-- ==== Sys2Proof/Machine/CallRet.lean ====
section
/-! DEFINITION. The calling convention: `Call` and `Ret` (46_call_return.md). -/

namespace Sys2Proof.Machine

/-- The frame `Call` pushes (46_call_return.md R241). -/
def calleeFrame (f : Frame) (start : Nat) (e : Const) (entry : Int) : Frame :=
  { ip := entry.toNat
    base := f.base + f.size
    size := e.window
    nret := e.nret
    retdst := start
    codeBase := entry.toNat }

/-- `Call` (46_call_return.md R241, R242, R243). -/
def execCall (count start func : Nat) (s : State) : Host.Outcome State Fault Refusal :=
  attempt s fun f _ => do
    raiseIf (0 < count ∧ f.size < start + count) .indexFault
    let e ← readConst s func
    let entry ← jumpValue e
    raiseIf (entry < 0 ∨ (s.codeLen : Int) ≤ entry) .indexFault
    raiseIf (e.window < count) .indexFault
    raiseIf (s.maxDepth ≤ s.depth) .stackOverflowFault
    raiseIf (s.regfileSize < f.base + f.size + e.window) .stackOverflowFault
    let cleared := clearSlots s.rf (f.base + f.size) e.window
    let passed := copySlots cleared (f.base + start) (f.base + f.size) count
    pure ((s.withRf passed).advance.push (calleeFrame f start e entry))

/-- `Ret` in a called frame (46_call_return.md R244): `c` is the caller's frame. -/
def returnTo (count start : Nat) (s : State) (f c : Frame) : Except FaultKind State := do
  raiseIf (0 < count ∧ f.size < start + count) .indexFault
  raiseIf (count ≠ f.nret) .indexFault
  raiseIf (0 < count ∧ c.size < f.retdst + count) .indexFault
  pure (s.withRf (copySlots s.rf (f.base + start) (c.base + f.retdst) count)).pop

/-- `Ret` in the outermost frame, the end of the program (46_call_return.md R245). -/
def endProgram (count start : Nat) (s : State) (f : Frame) : Except FaultKind State := do
  raiseIf (0 < count ∧ f.size < start + count) .indexFault
  pure (s.halt (.normal (s.slotsFrom (f.base + start) count)))

/-- `Ret` (46_call_return.md R244, R245). -/
def execRet (count start : Nat) (s : State) : Host.Outcome State Fault Refusal :=
  attempt s fun f callers =>
    match callers with
    | [] => endProgram count start s f
    | c :: _ => returnTo count start s f c

end Sys2Proof.Machine
end

