-- ==== Sys2Proof/Machine/Float.lean ====
section
/-! DEFINITION. Binary64 arithmetic (43_float_arithmetic.md R190 to R193, 44_comparison.md R202): finite
values are exact integers counted in units of 2^-1074, computed exactly and rounded once,
roundTiesToEven. What R190 takes from IEEE 754 and does not spell out is log 15. -/

namespace Sys2Proof.Machine

/-- The sign bit, payload bit 63. -/
def f64Neg (v : Payload) : Bool := decide (2 ^ 63 ≤ v.toNat)

/-- Exponent and fraction, payload bits 62 to 0. -/
def f64Mag (v : Payload) : Nat := v.toNat % 2 ^ 63

/-- The exponent field, 11 bits. -/
def f64Exp (v : Payload) : Nat := f64Mag v / 2 ^ 52

/-- The fraction field, 52 bits. -/
def f64Frac (v : Payload) : Nat := f64Mag v % 2 ^ 52

/-- The magnitude pattern of an infinity: exponent field all ones, fraction zero. -/
def f64InfMag : Nat := 0x7FF * 2 ^ 52

/-- A NaN: exponent field all ones, fraction not zero. -/
def f64IsNaN (v : Payload) : Bool := decide (f64InfMag < f64Mag v)

/-- An infinity of either sign. -/
def f64IsInf (v : Payload) : Bool := decide (f64Mag v = f64InfMag)

/-- A zero of either sign. -/
def f64IsZero (v : Payload) : Bool := decide (f64Mag v = 0)

/-- A finite value: neither an infinity nor a NaN. -/
def f64IsFinite (v : Payload) : Bool := decide (f64Mag v < f64InfMag)

/-- The magnitude of a finite value in units of 2^-1074, subnormals included. -/
def f64Units (v : Payload) : Nat :=
  if f64Exp v = 0 then f64Frac v else (2 ^ 52 + f64Frac v) <<< (f64Exp v - 1)

/-- A finite value in units of 2^-1074, with its sign. -/
def f64Value (v : Payload) : Int := if f64Neg v then -(f64Units v : Int) else (f64Units v : Int)

/-- The pattern of a sign and a magnitude pattern. -/
def f64Pack (neg : Bool) (mag : Nat) : Payload :=
  BitVec.ofNat 64 ((if neg then 2 ^ 63 else 0) + mag)

/-- The quotient `num / den` rounded to an integer, ties to even. -/
def divNearestEven (num den : Nat) : Nat :=
  if 2 * (num % den) < den then num / den
  else if den < 2 * (num % den) then num / den + 1
  else num / den + num / den % 2

/-- The magnitude pattern of the binary64 value nearest to `num / den` units of 2^-1074, ties to even;
the infinity's pattern on overflow. -/
def f64Round (num den : Nat) : Nat :=
  let shift := Nat.log2 (num / den) - 52
  min f64InfMag (shift * 2 ^ 52 + divNearestEven num (den <<< shift))

/-- `fadd(u, v)`; none where the result is a NaN (43_float_arithmetic.md R191, R193). -/
def f64Add (u v : Payload) : Option Payload :=
  if f64IsNaN u || f64IsNaN v then none
  else if f64IsInf u then
    if f64IsInf v && (f64Neg u != f64Neg v) then none else some u
  else if f64IsInf v then some v
  else
    let sum := f64Value u + f64Value v
    if sum = 0 then some (f64Pack (f64Neg u && f64Neg v) 0)
    else some (f64Pack (decide (sum < 0)) (f64Round sum.natAbs 1))

/-- `fdiv(u, v)` for a divisor that is not a zero, which `FDiv` has faulted on before; none where the
result is a NaN (43_float_arithmetic.md R192, R193). -/
def f64Div (u v : Payload) : Option Payload :=
  if f64IsNaN u || f64IsNaN v then none
  else if f64IsInf u then
    if f64IsInf v then none else some (f64Pack (f64Neg u != f64Neg v) f64InfMag)
  else if f64IsInf v then some (f64Pack (f64Neg u != f64Neg v) 0)
  else some (f64Pack (f64Neg u != f64Neg v) (f64Round (f64Units u <<< 1074) (f64Units v)))

/-- A pattern's place in IEEE 754 order, the two zeros equal; not for a NaN. -/
def f64Key (v : Payload) : Int := if f64Neg v then -(f64Mag v : Int) else (f64Mag v : Int)

/-- `u < v` in IEEE 754 order; a NaN is unordered (44_comparison.md R202). -/
def f64Lt (u v : Payload) : Bool :=
  !f64IsNaN u && !f64IsNaN v && decide (f64Key u < f64Key v)

/-- The NaN pattern of a sign and a fraction, which is `less + 1`: every NaN pattern is one of these
(43_float_arithmetic.md R193; log 7). -/
def nanPattern (neg : Bool) (less : Fin (2 ^ 52 - 2 + 1)) : Payload :=
  f64Pack neg (f64InfMag + 1 + less.val)

/-- The NaN the machine draws next (43_float_arithmetic.md R193; log 6). -/
def State.drawnNaN (s : State) : Payload :=
  nanPattern (Config.nanSign s.nanDraws) (Config.nanFraction s.nanDraws)

/-- A float result as it is written: itself, or the drawn NaN. -/
def State.orDrawnNaN (s : State) (r : Option Payload) : Payload := r.getD s.drawnNaN

end Sys2Proof.Machine
end

