-- ==== Sys2Proof/Machine/FloatArith.lean ====
section
/-! DEFINITION. Floating-point arithmetic: `FAdd`, `FDiv` (43_float_arithmetic.md). -/

namespace Sys2Proof.Machine

/-- The rule shared by the instructions of two float sources (43_float_arithmetic.md R191, R192,
44_comparison.md R202); `op` sees the state only for a NaN draw, and `after` takes the draw. -/
def floatBinary (write reg2 reg3 : Nat) (op : Payload → Payload → Except FaultKind Slot)
    (after : State → State) (s : State) : Host.Outcome State Fault Refusal :=
  attempt s fun f _ => do
    chk f write
    chk f reg2
    chk f reg3
    let u ← readFloat s f reg2
    let v ← readFloat s f reg3
    let r ← op u v
    let t ← writeReg s f write r
    pure (after t).advance

/-- `FAdd` (43_float_arithmetic.md R191). -/
def execFAdd (write reg2 reg3 : Nat) (s : State) : Host.Outcome State Fault Refusal :=
  floatBinary write reg2 reg3 (fun u v => pure (.float (s.orDrawnNaN (f64Add u v)))) State.nextDraw s

/-- `FDiv` (43_float_arithmetic.md R192). -/
def execFDiv (write reg2 reg3 : Nat) (s : State) : Host.Outcome State Fault Refusal :=
  floatBinary write reg2 reg3 (fun u v => do
    raiseIf (f64IsZero v = true) .arithmeticFault
    pure (.float (s.orDrawnNaN (f64Div u v)))) State.nextDraw s

end Sys2Proof.Machine
end

