-- ==== Sys2Proof/Machine/IntArith.lean ====
section
/-! DEFINITION. Integer arithmetic: `Add`, `Sub`, `Mult`, `Div`, `Mod`, `Neg` (42_integer_arithmetic.md). -/

namespace Sys2Proof.Machine

/-- `trunc_64(z)` (00_scope.md R8). -/
def trunc64 (z : Int) : Payload := BitVec.ofInt 64 z

/-- The quotient truncated toward zero, before truncation to 64 bits, as 42_integer_arithmetic.md R174
writes it. -/
def quotient (u v : Int) : Int := u.sign * v.sign * ((u.natAbs / v.natAbs : Nat) : Int)

/-- The rule shared by the integer instructions of two sources: all bounds checks in field order, both
typed reads, the result or its fault, the write, the advance (42_integer_arithmetic.md R171 to R175,
44_comparison.md R201). -/
def intBinary (write reg2 reg3 : Nat) (op : Payload → Payload → Except FaultKind Slot) (s : State) :
    Host.Outcome State Fault Refusal :=
  attempt s fun f _ => do
    chk f write
    chk f reg2
    chk f reg3
    let u ← readInt s f reg2
    let v ← readInt s f reg3
    let r ← op u v
    let t ← writeReg s f write r
    pure t.advance

/-- `Add` (42_integer_arithmetic.md R171). -/
def execAdd (write reg2 reg3 : Nat) (s : State) : Host.Outcome State Fault Refusal :=
  intBinary write reg2 reg3 (fun u v => pure (.int (trunc64 (u.toInt + v.toInt)))) s

/-- `Sub` (42_integer_arithmetic.md R172). -/
def execSub (write reg2 reg3 : Nat) (s : State) : Host.Outcome State Fault Refusal :=
  intBinary write reg2 reg3 (fun u v => pure (.int (trunc64 (u.toInt - v.toInt)))) s

/-- `Mult` (42_integer_arithmetic.md R173). -/
def execMult (write reg2 reg3 : Nat) (s : State) : Host.Outcome State Fault Refusal :=
  intBinary write reg2 reg3 (fun u v => pure (.int (trunc64 (u.toInt * v.toInt)))) s

/-- `Div` (42_integer_arithmetic.md R174). -/
def execDiv (write reg2 reg3 : Nat) (s : State) : Host.Outcome State Fault Refusal :=
  intBinary write reg2 reg3 (fun u v => do
    raiseIf (v = 0) .arithmeticFault
    pure (.int (trunc64 (quotient u.toInt v.toInt)))) s

/-- `Mod` (42_integer_arithmetic.md R175). -/
def execMod (write reg2 reg3 : Nat) (s : State) : Host.Outcome State Fault Refusal :=
  intBinary write reg2 reg3 (fun u v => do
    raiseIf (v = 0) .arithmeticFault
    pure (.int (trunc64 (u.toInt - quotient u.toInt v.toInt * v.toInt)))) s

/-- `Neg` (42_integer_arithmetic.md R176). -/
def execNeg (write reg2 : Nat) (s : State) : Host.Outcome State Fault Refusal :=
  attempt s fun f _ => do
    chk f write
    chk f reg2
    let u ← readInt s f reg2
    let t ← writeReg s f write (.int (trunc64 (0 - u.toInt)))
    pure t.advance

end Sys2Proof.Machine
end

