-- ==== Sys2Proof/Machine/Compare.lean ====
section
/-! DEFINITION. Comparison: `Lt`, `FLt` (44_comparison.md). -/

namespace Sys2Proof.Machine

/-- `Lt` (44_comparison.md R201). -/
def execLt (write reg2 reg3 : Nat) (s : State) : Host.Outcome State Fault Refusal :=
  intBinary write reg2 reg3 (fun u v => pure (boolSlot (decide (u.toInt < v.toInt)))) s

/-- `FLt` (44_comparison.md R202). -/
def execFLt (write reg2 reg3 : Nat) (s : State) : Host.Outcome State Fault Refusal :=
  floatBinary write reg2 reg3 (fun u v => pure (boolSlot (f64Lt u v))) id s

end Sys2Proof.Machine
end

