-- ==== Sys2Proof/Machine/Jumps.lean ====
section
/-! DEFINITION. The twelve jumps (45_jumps.md). -/

namespace Sys2Proof.Machine

/-! ## The four addressing families, each under a condition -/

/-- Unconditional jump to a target computed from the active frame (45_jumps.md R216, R222). -/
def jumpTo (target : Frame → Int) (s : State) : Host.Outcome State Fault Refusal :=
  attempt s fun f _ => land s (target f)

/-- Conditional jump: `when` is the guard value that takes it (45_jumps.md R213, R215). -/
def jumpToIf (reg : Nat) (when : Bool) (target : Frame → Int) (s : State) :
    Host.Outcome State Fault Refusal :=
  attempt s fun f _ => do
    let g ← truth s f reg
    landIf s (g == when) (target f)

/-- Unconditional jump through a constant (45_jumps.md R219, R225). -/
def jumpConst (index : Nat) (target : Frame → Int → Int) (s : State) :
    Host.Outcome State Fault Refusal :=
  attempt s fun f _ => do
    let e ← readConst s index
    let v ← jumpValue e
    land s (target f v)

/-- Conditional jump through a constant: register bounds, constant bounds, guard tag, constant kind,
then the target where it is taken (45_jumps.md R215, R220, R226). -/
def jumpConstIf (reg index : Nat) (when : Bool) (target : Frame → Int → Int) (s : State) :
    Host.Outcome State Fault Refusal :=
  attempt s fun f _ => do
    chk f reg
    let e ← readConst s index
    let g ← truth s f reg
    let v ← jumpValue e
    landIf s (g == when) (target f v)

/-! ## Absolute jumps -/

/-- `Jmp` (45_jumps.md R216). -/
def execJmp (target : Nat) (s : State) : Host.Outcome State Fault Refusal :=
  jumpTo (fun f => absTarget f target) s

/-- `JmpT` (45_jumps.md R217). -/
def execJmpT (reg target : Nat) (s : State) : Host.Outcome State Fault Refusal :=
  jumpToIf reg true (fun f => absTarget f target) s

/-- `JmpF` (45_jumps.md R218). -/
def execJmpF (reg target : Nat) (s : State) : Host.Outcome State Fault Refusal :=
  jumpToIf reg false (fun f => absTarget f target) s

/-! ## Constant-indexed absolute jumps -/

/-- `JmpC` (45_jumps.md R219). -/
def execJmpC (index : Nat) (s : State) : Host.Outcome State Fault Refusal :=
  jumpConst index absTarget s

/-- `JmpTC` (45_jumps.md R220). -/
def execJmpTC (reg index : Nat) (s : State) : Host.Outcome State Fault Refusal :=
  jumpConstIf reg index true absTarget s

/-- `JmpFC` (45_jumps.md R221). -/
def execJmpFC (reg index : Nat) (s : State) : Host.Outcome State Fault Refusal :=
  jumpConstIf reg index false absTarget s

/-! ## Relative jumps -/

/-- `RJmp` (45_jumps.md R222). -/
def execRJmp (offset : Int) (s : State) : Host.Outcome State Fault Refusal :=
  jumpTo (fun f => relTarget f offset) s

/-- `RJmpT` (45_jumps.md R223). -/
def execRJmpT (reg : Nat) (offset : Int) (s : State) : Host.Outcome State Fault Refusal :=
  jumpToIf reg true (fun f => relTarget f offset) s

/-- `RJmpF` (45_jumps.md R224). -/
def execRJmpF (reg : Nat) (offset : Int) (s : State) : Host.Outcome State Fault Refusal :=
  jumpToIf reg false (fun f => relTarget f offset) s

/-! ## Constant-indexed relative jumps -/

/-- `RJmpC` (45_jumps.md R225). -/
def execRJmpC (index : Nat) (s : State) : Host.Outcome State Fault Refusal :=
  jumpConst index relTarget s

/-- `RJmpTC` (45_jumps.md R226). -/
def execRJmpTC (reg index : Nat) (s : State) : Host.Outcome State Fault Refusal :=
  jumpConstIf reg index true relTarget s

/-- `RJmpFC` (45_jumps.md R227). -/
def execRJmpFC (reg index : Nat) (s : State) : Host.Outcome State Fault Refusal :=
  jumpConstIf reg index false relTarget s

end Sys2Proof.Machine
end

