-- ==== Sys2Proof/Machine/Dispatch.lean ====
section
/-! DEFINITION. One case per opcode (40_dispatch.md R135). -/

namespace Sys2Proof.Machine

def exec (i : Instr) (s : State) : Host.Outcome State Fault Refusal :=
  match i with
  | .nop => Sys2Proof.Machine.execNop s
  | .print reg => Sys2Proof.Machine.execPrint reg s
  | .load write index => Sys2Proof.Machine.execLoad write index s
  | .add write reg2 reg3 => Sys2Proof.Machine.execAdd write reg2 reg3 s
  | .sub write reg2 reg3 => Sys2Proof.Machine.execSub write reg2 reg3 s
  | .mult write reg2 reg3 => Sys2Proof.Machine.execMult write reg2 reg3 s
  | .div write reg2 reg3 => Sys2Proof.Machine.execDiv write reg2 reg3 s
  | .mod write reg2 reg3 => Sys2Proof.Machine.execMod write reg2 reg3 s
  | .neg write reg2 => Sys2Proof.Machine.execNeg write reg2 s
  | .fAdd write reg2 reg3 => Sys2Proof.Machine.execFAdd write reg2 reg3 s
  | .fDiv write reg2 reg3 => Sys2Proof.Machine.execFDiv write reg2 reg3 s
  | .lt write reg2 reg3 => Sys2Proof.Machine.execLt write reg2 reg3 s
  | .fLt write reg2 reg3 => Sys2Proof.Machine.execFLt write reg2 reg3 s
  | .jmp target => Sys2Proof.Machine.execJmp target s
  | .jmpT reg target => Sys2Proof.Machine.execJmpT reg target s
  | .jmpF reg target => Sys2Proof.Machine.execJmpF reg target s
  | .jmpC index => Sys2Proof.Machine.execJmpC index s
  | .jmpTC reg index => Sys2Proof.Machine.execJmpTC reg index s
  | .jmpFC reg index => Sys2Proof.Machine.execJmpFC reg index s
  | .rJmp offset => Sys2Proof.Machine.execRJmp offset s
  | .rJmpT reg offset => Sys2Proof.Machine.execRJmpT reg offset s
  | .rJmpF reg offset => Sys2Proof.Machine.execRJmpF reg offset s
  | .rJmpC index => Sys2Proof.Machine.execRJmpC index s
  | .rJmpTC reg index => Sys2Proof.Machine.execRJmpTC reg index s
  | .rJmpFC reg index => Sys2Proof.Machine.execRJmpFC reg index s
  | .call count start func => Sys2Proof.Machine.execCall count start func s
  | .ret count start => Sys2Proof.Machine.execRet count start s

end Sys2Proof.Machine
end

