-- ==== Sys2Proof/Machine/Step.lean ====
section
/-! DEFINITION. One step of the dispatcher (40_dispatch.md R131). -/

namespace Sys2Proof.Machine

/-- The word at the active frame's `ip`, decoded and executed (40_dispatch.md R131, R133). -/
def dispatch (w : Word) (s : State) : Host.Outcome State Fault Refusal :=
  match decode w with
  | .error _ => .next (raiseDecode s)
  | .ok i => exec i s

/-- One step while running with an active frame: an exhausted stream halts, else the fetched word is
dispatched (40_dispatch.md R131, R132). -/
def stepRunning (s : State) : Host.Outcome State Fault Refusal :=
  match s.stack with
  | [] => .fault .noActiveFrame
  | _ :: _ =>
    match s.fetch with
    | none => .next (haltExhausted s)
    | some w => dispatch w s

/-- One step. In `Halted` the core does nothing (40_dispatch.md R130; log 12). -/
def step (s : State) : Host.Outcome State Fault Refusal :=
  match s.run with
  | .halted => .next s
  | .running => stepRunning s

/-- `s` with a table row's word where the next step fetches (log 2). -/
def State.withFetchWord (s : State) (nbits w : Nat) : State :=
  s.placeFetch (BitVec.ofNat 64 (w % 2 ^ nbits))

end Sys2Proof.Machine
end

