-- ==== Sys2Proof/Machine/Asm.lean ====
section
/-! DEFINITION. The assembler's line notation (30_encoding.md R109) as a printer; reading it is the
lexer's and parser's work, which 00_scope.md R5 leaves out. -/

namespace Sys2Proof.Machine

/-- A register operand, `r` and its decimal local index (30_encoding.md R109). -/
def asmReg (r : Nat) : String := "r" ++ toString r

/-- A constant-pool index, `#` and its decimal value (30_encoding.md R109). -/
def asmConst (k : Nat) : String := "#" ++ toString k

/-- An offset, decimal, with a sign where negative (30_encoding.md R109; log 20). -/
def asmOffset (z : Int) : String := toString z

/-- The form of the three-register instructions (30_encoding.md R109). -/
def asmThree (op : String) (write reg2 reg3 : Nat) : String :=
  op ++ " " ++ asmReg write ++ ", " ++ asmReg reg2 ++ ", " ++ asmReg reg3

/-- The line of an instruction (30_encoding.md R109). -/
def asmLine : Instr → String
  | .nop => "Nop"
  | .print reg => "Print " ++ asmReg reg
  | .load write index => "Load " ++ asmReg write ++ ", " ++ asmConst index
  | .add write reg2 reg3 => asmThree "Add" write reg2 reg3
  | .sub write reg2 reg3 => asmThree "Sub" write reg2 reg3
  | .mult write reg2 reg3 => asmThree "Mult" write reg2 reg3
  | .div write reg2 reg3 => asmThree "Div" write reg2 reg3
  | .mod write reg2 reg3 => asmThree "Mod" write reg2 reg3
  | .neg write reg2 => "Neg " ++ asmReg write ++ ", " ++ asmReg reg2
  | .fAdd write reg2 reg3 => asmThree "FAdd" write reg2 reg3
  | .fDiv write reg2 reg3 => asmThree "FDiv" write reg2 reg3
  | .lt write reg2 reg3 => asmThree "Lt" write reg2 reg3
  | .fLt write reg2 reg3 => asmThree "FLt" write reg2 reg3
  | .jmp target => "Jmp " ++ toString target
  | .jmpT reg target => "JmpT " ++ asmReg reg ++ ", " ++ toString target
  | .jmpF reg target => "JmpF " ++ asmReg reg ++ ", " ++ toString target
  | .jmpC index => "JmpC " ++ asmConst index
  | .jmpTC reg index => "JmpTC " ++ asmReg reg ++ ", " ++ asmConst index
  | .jmpFC reg index => "JmpFC " ++ asmReg reg ++ ", " ++ asmConst index
  | .rJmp offset => "RJmp " ++ asmOffset offset
  | .rJmpT reg offset => "RJmpT " ++ asmReg reg ++ ", " ++ asmOffset offset
  | .rJmpF reg offset => "RJmpF " ++ asmReg reg ++ ", " ++ asmOffset offset
  | .rJmpC index => "RJmpC " ++ asmConst index
  | .rJmpTC reg index => "RJmpTC " ++ asmReg reg ++ ", " ++ asmConst index
  | .rJmpFC reg index => "RJmpFC " ++ asmReg reg ++ ", " ++ asmConst index
  | .call count start func => "Call " ++ toString count ++ ", " ++ asmReg start ++ ", " ++ asmConst func
  | .ret count start => "Ret " ++ toString count ++ ", " ++ asmReg start

/-- The offset a relative jump at index `at_` needs to reach the label's index (30_encoding.md R111). -/
def labelOffset (label at_ : Nat) : Int := (label : Int) - at_ - 1

end Sys2Proof.Machine
end

