-- ==== Sys2Proof/Safety.lean ====
section
/-! DEFINITION. The terms claims are stated in: what an instruction leaves behind, what a taken fault
leaves, the invariants of a run, the facts of the opcode map, and what the host can observe. -/

namespace Sys2Proof.Safety

open Sys2Proof Sys2Proof.Machine

/-! ## What an instruction leaves -/

/-- The unit and the configuration of `t` are those of `s` (10_state.md R42, 20_memory.md R61, R68). -/
structure SameUnit (s t : State) : Prop where
  code : t.code = s.code
  pool : t.pool = s.pool
  maxDepth : t.maxDepth = s.maxDepth
  entryWindow : t.entryWindow = s.entryWindow
  regfileSize : t.regfileSize = s.regfileSize

/-- `f` is the active frame, over `callers`, and its window lies inside the arena (10_state.md R24, R30). -/
structure Active (s : State) (f : Frame) (callers : List Frame) : Prop where
  stack : s.stack = f :: callers
  fits : f.base + f.size ≤ s.regfileSize

/-- `t` is `s` after an instruction that wrote `r` to register `w` of the active frame `f` and advanced:
every other slot of the arena, every other frame and frame field, the unit, the dispatcher, the result
and the print log are unchanged. `draws` counts the NaN draws taken, the model's own field (log 6). -/
structure WroteRegister (s : State) (f : Frame) (callers : List Frame) (w : Nat) (r : Slot)
    (draws : Nat) (t : State) : Prop where
  written : t.slotAt (f.base + w) = r
  others : ∀ k, k ≠ f.base + w → t.slotAt k = s.slotAt k
  stack : t.stack = { f with ip := f.ip + 1 } :: callers
  unit : SameUnit s t
  run : t.run = s.run
  result : t.result = s.result
  out : t.out = s.out
  draws : t.nanDraws = s.nanDraws + draws

/-- `s` after the active frame's instruction pointer became `n` and nothing else changed. -/
def withIp (s : State) (f : Frame) (callers : List Frame) (n : Nat) : State :=
  { s with stack := { f with ip := n } :: callers }

/-- `s` after the active frame took the fault `k`: the descriptor names the kind, the frame's `ip` and
the depth; nothing else changed (60_exceptions.md R268 to R270). -/
def faulted (s : State) (f : Frame) (callers : List Frame) (k : FaultKind) : State :=
  { s with run := .halted, result := .fault k f.ip (callers.length + 1) }

/-- Registers `p` and `q` of the frame's window hold the integers `u` and `v`. -/
structure IntSources (s : State) (f : Frame) (p q : Nat) (u v : Payload) : Prop where
  first : p < f.size
  second : q < f.size
  firstSlot : s.slotAt (f.base + p) = .int u
  secondSlot : s.slotAt (f.base + q) = .int v

/-- Registers `p` and `q` of the frame's window hold the floats `u` and `v`. -/
structure FloatSources (s : State) (f : Frame) (p q : Nat) (u v : Payload) : Prop where
  first : p < f.size
  second : q < f.size
  firstSlot : s.slotAt (f.base + p) = .float u
  secondSlot : s.slotAt (f.base + q) = .float v

/-- Register `reg` of the frame's window holds an integer whose boolean interpretation is `g`
(10_state.md R37). -/
def Guard (s : State) (f : Frame) (reg : Nat) (g : Bool) : Prop :=
  reg < f.size ∧ ∃ v, s.slotAt (f.base + reg) = .int v ∧ (v ≠ 0 ↔ g = true)

/-- Entry `index` of the pool is a `Jump` constant of signed value `v` (20_memory.md R65, R67). -/
def JumpConst (s : State) (index : Nat) (v : Int) : Prop :=
  ∃ e, s.pool[index]? = some e ∧ e.kind = .jump ∧ e.value.toInt = v

/-- A jump target inside the instruction store (45_jumps.md R212). -/
def InCode (s : State) (t : Int) : Prop := 0 ≤ t ∧ t < s.codeLen

/-! ## Invariants of a run -/

/-- Every window starts where the window of the frame below it ends, and the outermost one starts at 0
(10_state.md R24). The active frame stands first. -/
def Chained : List Frame → Prop
  | [] => True
  | [f] => f.base = 0
  | f :: c :: rest => f.base = c.base + c.size ∧ Chained (c :: rest)

/-- The invariants of the call stack (46_call_return.md R247). An empty instruction store (State.reset,
log 2) has no instruction index a code base could be. -/
structure StackInv (s : State) : Prop where
  nonempty : 1 ≤ s.depth
  depth : s.depth ≤ s.maxDepth
  chained : Chained s.stack
  fits : ∀ f, s.stack.head? = some f → f.base + f.size ≤ s.regfileSize
  ips : ∀ f, f ∈ s.stack → f.ip ≤ s.codeLen
  codeBases : ∀ f, f ∈ s.stack → s.codeLen ≠ 0 → f.codeBase < s.codeLen

/-- No slot of the register file, the print log or the returned values has tag `Vec` (10_state.md R26). -/
structure VectorFree (s : State) : Prop where
  rf : Slot.vec ∉ s.rf
  out : Slot.vec ∉ s.out
  result : ∀ vs, s.result = .normal vs → Slot.vec ∉ vs

/-- `s` and `t` differ at most in the arena slots above the active window (10_state.md R44). -/
structure AgreeInWindows (s t : State) : Prop where
  unit : SameUnit s t
  stack : t.stack = s.stack
  slots : ∀ f, s.stack.head? = some f → ∀ k, k < f.base + f.size → t.slotAt k = s.slotAt k
  run : t.run = s.run
  result : t.result = s.result
  out : t.out = s.out
  draws : t.nanDraws = s.nanDraws

/-- `t` is reached from `s0` in `n` steps (40_dispatch.md R137). -/
def ReachedFrom (s0 : State) (n : Nat) (t : State) : Prop := Host.Core.run core n s0 = .next t

/-! ## The opcode map -/

/-- The 27 assigned opcode values (30_encoding.md R97). -/
def assignedOpcodes : List Nat :=
  [0x00, 0x01, 0x02, 0x10, 0x11, 0x12, 0x13, 0x14, 0x15, 0x20, 0x21, 0x30, 0x31, 0x40, 0x41, 0x42,
    0x44, 0x45, 0x46, 0x48, 0x49, 0x4A, 0x4C, 0x4D, 0x4E, 0x50, 0x51]

/-- The three-operand opcodes of shape C, whose bits 63:56 carry nothing (30_encoding.md R94, R97). -/
def threeOperandOpcodes : List Nat := [0x10, 0x11, 0x12, 0x13, 0x14, 0x20, 0x21, 0x30, 0x31, 0x50]

/-- How many low bits of a word with this opcode carry its opcode and operands (30_encoding.md R96, R97):
the opcode alone for `Nop`, two fields of shape C for `Neg` and `Ret`, three for the other opcodes of
shape C, all 64 otherwise. -/
def usedBits (opcode : Nat) : Nat :=
  if opcode = 0x00 then 8
  else if opcode = 0x15 ∨ opcode = 0x51 then 40
  else if opcode ∈ threeOperandOpcodes then 56
  else 64

/-- Every unused bit of the word is zero (30_encoding.md R96). -/
def UnusedBitsZero (w : Word) : Prop := w.toNat < 2 ^ usedBits (opcodeOf w)

/-- Two words that differ at most in unused bits (30_encoding.md R96). -/
def SameUsedBits (w w' : Word) : Prop :=
  opcodeOf w = opcodeOf w' ∧ w.toNat % 2 ^ usedBits (opcodeOf w) = w'.toNat % 2 ^ usedBits (opcodeOf w)

/-- A word the load check rejects (70_reset_and_hazards.md R303). -/
def BadWord (poolLen : Nat) (w : Word) : Prop :=
  opcodeOf w ∉ assignedOpcodes ∨
    (opcodeOf w ∈ [0x02, 0x45, 0x46, 0x4D, 0x4E] ∧ poolLen ≤ bitsOf w 63 32) ∨
    (opcodeOf w ∈ [0x44, 0x4C] ∧ poolLen ≤ bitsOf w 63 8) ∨
    (opcodeOf w = 0x50 ∧ poolLen ≤ bitsOf w 55 40)

/-- The fault kinds an instruction can raise (60_exceptions.md R275). -/
def mayRaise : Instr → List FaultKind
  | .nop => []
  | .print _ => [.indexFault, .typeFault]
  | .load _ _ => [.indexFault, .typeFault]
  | .add _ _ _ => [.indexFault, .typeFault]
  | .sub _ _ _ => [.indexFault, .typeFault]
  | .mult _ _ _ => [.indexFault, .typeFault]
  | .div _ _ _ => [.indexFault, .typeFault, .arithmeticFault]
  | .mod _ _ _ => [.indexFault, .typeFault, .arithmeticFault]
  | .neg _ _ => [.indexFault, .typeFault]
  | .fAdd _ _ _ => [.indexFault, .typeFault]
  | .fDiv _ _ _ => [.indexFault, .typeFault, .arithmeticFault]
  | .lt _ _ _ => [.indexFault, .typeFault]
  | .fLt _ _ _ => [.indexFault, .typeFault]
  | .jmp _ => [.indexFault]
  | .jmpT _ _ => [.indexFault, .typeFault]
  | .jmpF _ _ => [.indexFault, .typeFault]
  | .jmpC _ => [.indexFault, .typeFault]
  | .jmpTC _ _ => [.indexFault, .typeFault]
  | .jmpFC _ _ => [.indexFault, .typeFault]
  | .rJmp _ => [.indexFault]
  | .rJmpT _ _ => [.indexFault, .typeFault]
  | .rJmpF _ _ => [.indexFault, .typeFault]
  | .rJmpC _ => [.indexFault, .typeFault]
  | .rJmpTC _ _ => [.indexFault, .typeFault]
  | .rJmpFC _ _ => [.indexFault, .typeFault]
  | .call _ _ _ => [.indexFault, .typeFault, .stackOverflowFault]
  | .ret _ _ => [.indexFault]

/-- The instructions that leave the instruction pointer to the jump resolver or the call stack: the
twelve jumps, `Call` and `Ret` (10_state.md R28). Every other one ends with the default advance. -/
def transfersControl (i : Instr) : Bool := decide (0x40 ≤ i.opcode)

/-! ## Safe runs -/

/-- The state is no fault's: the machine runs on or completed normally (60_exceptions.md R260). -/
def FaultFree (s : State) : Prop := s.run = .running ∨ ∃ vs, s.result = .normal vs

/-- The first `n` steps from `s` end without a fault. -/
def SafeFor (n : Nat) (s : State) : Prop :=
  ∃ t, ReachedFrom s n t ∧ FaultFree t

end Sys2Proof.Safety
end

