-- ==== Sys2Proof/Certificates/Slice0/Obligations.lean ====
section
/-! DEFINITION. The statements about the model, for the provers. OBLIGATIONS.json lists them with the
rules they rest on. -/

open Sys2Proof Sys2Proof.Machine Sys2Proof.Safety

/-! ## The codec -/

/-- 30_encoding.md R102: decoding an encoded instruction gives it back, opcode, shape and fields; encoding
a decoded word gives the word back exactly when its opcode is assigned and its unused bits are zero. -/
def Obligations.DecodeInvertsEncode : Prop :=
  (∀ i : Instr, i.wellFormed = true →
    ∃ w, encode i = .ok w ∧ decode w = .ok i ∧ decodeRaw w = (i.opcode, i.fields)) ∧
  (∀ w : Word, (∃ i, decode w = .ok i ∧ encode i = .ok w) ↔
    opcodeOf w ∈ assignedOpcodes ∧ UnusedBitsZero w)

/-- 30_encoding.md R96: encode writes unused bits as zero; decode, the load check and the dispatcher
ignore them. -/
def Obligations.UnusedBitsAreIgnored : Prop :=
  (∀ i w, encode i = .ok w → UnusedBitsZero w) ∧
  (∀ w w' : Word, SameUsedBits w w' →
    decode w = decode w' ∧ (∀ n, loadCheckWord n w = loadCheckWord n w') ∧
    (∀ s, dispatch w s = dispatch w' s))

/-- 30_encoding.md R104, R106: a word is an instruction exactly when its opcode byte is assigned; the
instruction then fits its own encoding. -/
def Obligations.DecodeAcceptsAssignedOpcodes : Prop :=
  ∀ w : Word, (opcodeOf w ∈ assignedOpcodes → ∃ i, decode w = .ok i ∧ i.wellFormed = true) ∧
    (opcodeOf w ∉ assignedOpcodes → decode w = .error (.unassignedOpcode (opcodeOf w)))

/-- 30_encoding.md R91 to R95: the opcode and the fields are the word's bit ranges under the shape of the
opcode; the shape of an assigned opcode is its instruction's, that of every other is A. -/
def Obligations.RawDecodeCutsBitRanges : Prop :=
  (∀ w : Word, (decodeRaw w).1 = (w.extractLsb' 0 8).toNat ∧
    (shapeOf (opcodeOf w) = .A → (decodeRaw w).2 = .shapeA (w.extractLsb' 8 56).toNat) ∧
    (shapeOf (opcodeOf w) = .B →
      (decodeRaw w).2 = .shapeB (w.extractLsb' 8 24).toNat (w.extractLsb' 32 32).toNat) ∧
    (shapeOf (opcodeOf w) = .C →
      (decodeRaw w).2 = .shapeC (w.extractLsb' 8 16).toNat (w.extractLsb' 24 16).toNat
        (w.extractLsb' 40 16).toNat)) ∧
  (∀ i : Instr, shapeOf i.opcode = i.fields.shape) ∧
  (∀ op, op ∉ assignedOpcodes → shapeOf op = .A)

/-- The encoding formula of every instruction rule, by shifts, and the construction error of 30_encoding.md
R101 where an operand does not fit its field. -/
def Obligations.EncodeBuildsWordsByShifts : Prop :=
  let word (n : Nat) : Except ConstructionError Word := .ok (BitVec.ofNat 64 n)
  let a (v op : Nat) : Except ConstructionError Word :=
    if v < 2 ^ 56 then word (v <<< 8 ||| op) else .error .operandDoesNotFit
  let b (x y op : Nat) : Except ConstructionError Word :=
    if x < 2 ^ 24 ∧ y < 2 ^ 32 then word (y <<< 32 ||| x <<< 8 ||| op) else .error .operandDoesNotFit
  let c (x y z op : Nat) : Except ConstructionError Word :=
    if x < 2 ^ 16 ∧ y < 2 ^ 16 ∧ z < 2 ^ 16 then word (z <<< 40 ||| y <<< 24 ||| x <<< 8 ||| op)
    else .error .operandDoesNotFit
  let offset32 (x : Nat) (z : Int) (op : Nat) : Except ConstructionError Word :=
    if -(2 ^ 31) ≤ z ∧ z < 2 ^ 31 then b x (BitVec.ofInt 32 z).toNat op else .error .operandDoesNotFit
  encode .nop = word 0x00 ∧
  (∀ r, encode (.print r) = a r 0x01) ∧
  (∀ w k, encode (.load w k) = b w k 0x02) ∧
  (∀ w p q, encode (.add w p q) = c w p q 0x10) ∧
  (∀ w p q, encode (.sub w p q) = c w p q 0x11) ∧
  (∀ w p q, encode (.mult w p q) = c w p q 0x12) ∧
  (∀ w p q, encode (.div w p q) = c w p q 0x13) ∧
  (∀ w p q, encode (.mod w p q) = c w p q 0x14) ∧
  (∀ w p, encode (.neg w p) = c w p 0 0x15) ∧
  (∀ w p q, encode (.fAdd w p q) = c w p q 0x20) ∧
  (∀ w p q, encode (.fDiv w p q) = c w p q 0x21) ∧
  (∀ w p q, encode (.lt w p q) = c w p q 0x30) ∧
  (∀ w p q, encode (.fLt w p q) = c w p q 0x31) ∧
  (∀ v, encode (.jmp v) = a v 0x40) ∧
  (∀ r v, encode (.jmpT r v) = b r v 0x41) ∧
  (∀ r v, encode (.jmpF r v) = b r v 0x42) ∧
  (∀ k, encode (.jmpC k) = a k 0x44) ∧
  (∀ r k, encode (.jmpTC r k) = b r k 0x45) ∧
  (∀ r k, encode (.jmpFC r k) = b r k 0x46) ∧
  (∀ z : Int, encode (.rJmp z) =
    if -(2 ^ 55) ≤ z ∧ z < 2 ^ 55 then a (BitVec.ofInt 56 z).toNat 0x48 else .error .operandDoesNotFit) ∧
  (∀ r z, encode (.rJmpT r z) = offset32 r z 0x49) ∧
  (∀ r z, encode (.rJmpF r z) = offset32 r z 0x4A) ∧
  (∀ k, encode (.rJmpC k) = a k 0x4C) ∧
  (∀ r k, encode (.rJmpTC r k) = b r k 0x4D) ∧
  (∀ r k, encode (.rJmpFC r k) = b r k 0x4E) ∧
  (∀ n b k, encode (.call n b k) = c n b k 0x50) ∧
  (∀ n b, encode (.ret n b) = c n b 0 0x51)

/-- Words of 95_test_vectors.md, one or more of each family, decode to the instructions they stand for. -/
def Obligations.DecodeSampleWords : Prop :=
  decode 0x0000000000000301 = .ok (.print 3) ∧
  decode 0x0000000A00000302 = .ok (.load 3 10) ∧
  decode 0x0000030002000110 = .ok (.add 1 2 3) ∧
  decode 0x0000000002000115 = .ok (.neg 1 2) ∧
  decode 0x0000030002000121 = .ok (.fDiv 1 2 3) ∧
  decode 0x0000030002000131 = .ok (.fLt 1 2 3) ∧
  decode 0x0000000300000042 = .ok (.jmpF 0 3) ∧
  decode 0x0000000100000245 = .ok (.jmpTC 2 1) ∧
  decode 0xFFFFFFFFFFFFFD48 = .ok (.rJmp (-3)) ∧
  decode 0xFFFFFFFD00000349 = .ok (.rJmpT 3 (-3)) ∧
  decode 0x000000010000024E = .ok (.rJmpFC 2 1) ∧
  decode 0x0000070004000250 = .ok (.call 2 4 7) ∧
  decode 0x0000000002000151 = .ok (.ret 1 2)

/-- 20_memory.md R63: byte `8a + k` of a unit held as bytes is bits `8k+7` to `8k` of word `a`, and reading
the bytes back gives the words. -/
def Obligations.UnitBytesAreLittleEndian : Prop :=
  (∀ (ws : List Word) (a k : Nat) (w : Word), ws[a]? = some w → k < 8 →
    (ws.flatMap bytesOfWord)[8 * a + k]? = some (w.extractLsb' (8 * k) 8)) ∧
  (∀ ws : List Word, wordsOfBytes ws.length (ws.flatMap bytesOfWord) = .ok ws)

/-! ## Reset and the load check -/

/-- 70_reset_and_hazards.md R301: the state of a launch whose unit passes the load check. -/
def Obligations.LaunchGivesResetState : Prop :=
  ∀ (cfg : Config) (code : List Word) (pool : List Const), launchable cfg code pool = true →
    loadCheck code pool = none →
    ∃ s f, boot cfg code pool = some s ∧ s.code = code ∧ s.pool = pool ∧ s.maxDepth = cfg.maxDepth ∧
      s.regfileSize = cfg.regfileSize ∧ (∀ k, s.slotAt k = .invalid) ∧ s.stack = [f] ∧ f.ip = 0 ∧
      f.base = 0 ∧ f.size = cfg.entryWindow ∧ f.codeBase = 0 ∧ s.depth = 1 ∧ s.run = .running ∧ s.out = []

/-- 70_reset_and_hazards.md R303: the load check reports the first word, in index order, whose opcode is
unassigned or whose constant index is out of the pool's bounds, 0 for an empty unit; the launch is then
halted with that `LoadFault`. -/
def Obligations.LoadCheckReportsFirstBadWord : Prop :=
  ∀ (code : List Word) (pool : List Const),
    (∀ a, loadCheck code pool = some a ↔
      (code = [] ∧ a = 0) ∨
        ∃ w, code[a]? = some w ∧ BadWord pool.length w ∧
          ∀ b w', b < a → code[b]? = some w' → ¬BadWord pool.length w') ∧
    (∀ (cfg : Config) (a : Nat), launchable cfg code pool = true → loadCheck code pool = some a →
      ∃ s, boot cfg code pool = some s ∧ s.run = .halted ∧ s.result = .fault .loadFault a 0)

/-- A launch exists exactly under the premises of 70_reset_and_hazards.md R302 and the limits of 00_scope.md
R6 (that a launch outside them has no meaning is R302's; which limits it covers is log 17). -/
def Obligations.LaunchNeedsItsPremises : Prop :=
  ∀ (cfg : Config) (code : List Word) (pool : List Const),
    (∃ s, boot cfg code pool = some s) ↔
      (cfg.entryWindow ≤ cfg.regfileSize ∧ 1 ≤ cfg.maxDepth) ∧ code.length < 2 ^ 63 ∧ pool.length ≤ 65536

/-! ## The dispatcher -/

/-- 40_dispatch.md R131: running, a step is `exec` of the instruction the word at the active frame's `ip`
decodes to, and nothing else. -/
def Obligations.StepRunsDecodedInstruction : Prop :=
  ∀ (s : State) (f : Frame) (callers : List Frame) (w : Word) (i : Instr),
    s.run = .running → s.stack = f :: callers → s.code[f.ip]? = some w → decode w = .ok i →
    i.wellFormed = true ∧ step s = exec i s

/-- 40_dispatch.md R132: at the end of the stream, at any depth, the run completes normally with no values. -/
def Obligations.ExhaustedStreamHaltsNormally : Prop :=
  ∀ (s : State) (f : Frame) (callers : List Frame),
    s.run = .running → s.stack = f :: callers → s.codeLen ≤ f.ip →
    step s = .next { s with run := .halted, result := .normal [] }

/-- 40_dispatch.md R133: a fetched word with an unassigned opcode raises `DecodeFault`. -/
def Obligations.UnknownOpcodeRaisesDecodeFault : Prop :=
  ∀ (s : State) (f : Frame) (callers : List Frame) (w : Word),
    s.run = .running → s.stack = f :: callers → s.code[f.ip]? = some w →
    opcodeOf w ∉ assignedOpcodes → step s = .next (faulted s f callers .decodeFault)

/-- 40_dispatch.md R130: halted, the core does nothing, however often it is stepped. That a step in `Halted`
answers the same state is the model's reading (log 12). -/
def Obligations.HaltedIsTerminal : Prop :=
  ∀ (s : State) (n : Nat), s.run = .halted → ReachedFrom s n s

/-! ## Nop, Print, Load -/

/-- 40_dispatch.md R140: `Nop` advances the instruction pointer and changes nothing else. -/
def Obligations.NopOnlyAdvances : Prop :=
  ∀ (s : State) (f : Frame) (callers : List Frame), s.stack = f :: callers →
    exec .nop s = .next (withIp s f callers (f.ip + 1))

/-- 40_dispatch.md R142: `Print` appends an `Int` or `Float` slot to the log and advances; it faults out of
the window, then on any other tag. -/
def Obligations.PrintEmitsNumericSlot : Prop :=
  ∀ (s : State) (f : Frame) (callers : List Frame) (reg : Nat), s.stack = f :: callers →
    (∀ v, reg < f.size → (s.slotAt (f.base + reg) = .int v ∨ s.slotAt (f.base + reg) = .float v) →
      exec (.print reg) s = .next { withIp s f callers (f.ip + 1) with
        out := s.out ++ [s.slotAt (f.base + reg)] }) ∧
    (f.size ≤ reg → exec (.print reg) s = .next (faulted s f callers .indexFault)) ∧
    (reg < f.size → (s.slotAt (f.base + reg) = .invalid ∨ s.slotAt (f.base + reg) = .vec) →
      exec (.print reg) s = .next (faulted s f callers .typeFault))

/-- 41_load.md R160: `Load` copies an `Int` or `Float` constant, tag and value, into its register and
advances; the faults, in order, are the register's bound, the constant's bound, a `Jump` constant. -/
def Obligations.LoadCopiesConstant : Prop :=
  ∀ (s : State) (f : Frame) (callers : List Frame) (w index : Nat), Active s f callers →
    (∀ e r, w < f.size → s.pool[index]? = some e →
      ((e.kind = .int ∧ r = .int e.value) ∨ (e.kind = .float ∧ r = .float e.value)) →
      ∃ t, exec (.load w index) s = .next t ∧ WroteRegister s f callers w r 0 t) ∧
    ((f.size ≤ w ∨ s.poolLen ≤ index) →
      exec (.load w index) s = .next (faulted s f callers .indexFault)) ∧
    (∀ e, w < f.size → s.pool[index]? = some e → e.kind = .jump →
      exec (.load w index) s = .next (faulted s f callers .typeFault))

/-! ## Integer arithmetic and comparison -/

/-- 42_integer_arithmetic.md R171 to R173: `Add`, `Sub` and `Mult` write the exact result reduced modulo
2^64, change nothing else, and advance. -/
def Obligations.AddSubMultWriteWrappedResult : Prop :=
  ∀ (s : State) (f : Frame) (callers : List Frame) (w p q : Nat) (u v : Payload),
    Active s f callers → w < f.size → IntSources s f p q u v →
    (∃ t, exec (.add w p q) s = .next t ∧ WroteRegister s f callers w (.int (u + v)) 0 t) ∧
    (∃ t, exec (.sub w p q) s = .next t ∧ WroteRegister s f callers w (.int (u - v)) 0 t) ∧
    (∃ t, exec (.mult w p q) s = .next t ∧ WroteRegister s f callers w (.int (u * v)) 0 t)

/-- 42_integer_arithmetic.md R174, R175: `Div` and `Mod` write the quotient truncated toward zero and the
remainder of the dividend's sign, reduced modulo 2^64, `MIN / -1` among them. -/
def Obligations.DivModTruncateTowardZero : Prop :=
  ∀ (s : State) (f : Frame) (callers : List Frame) (w p q : Nat) (u v : Payload),
    Active s f callers → w < f.size → IntSources s f p q u v → v ≠ 0 →
    (∃ t, exec (.div w p q) s = .next t ∧
      WroteRegister s f callers w (.int (BitVec.ofInt 64 (u.toInt.tdiv v.toInt))) 0 t) ∧
    (∃ t, exec (.mod w p q) s = .next t ∧
      WroteRegister s f callers w (.int (BitVec.ofInt 64 (u.toInt.tmod v.toInt))) 0 t)

/-- 42_integer_arithmetic.md R176: `Neg` writes the wrapped negation. -/
def Obligations.NegWritesWrappedNegation : Prop :=
  ∀ (s : State) (f : Frame) (callers : List Frame) (w p : Nat) (u : Payload),
    Active s f callers → w < f.size → p < f.size → s.slotAt (f.base + p) = .int u →
    ∃ t, exec (.neg w p) s = .next t ∧ WroteRegister s f callers w (.int (-u)) 0 t

/-- 44_comparison.md R200, R201: `Lt` compares the signed values exactly and writes `Int` 1 or 0. -/
def Obligations.LtWritesSignedComparison : Prop :=
  ∀ (s : State) (f : Frame) (callers : List Frame) (w p q : Nat) (u v : Payload),
    Active s f callers → w < f.size → IntSources s f p q u v →
    ∃ t, exec (.lt w p q) s = .next t ∧
      WroteRegister s f callers w (.int (if u.toInt < v.toInt then 1 else 0)) 0 t

/-- 42_integer_arithmetic.md R170: the quotient `q` and the remainder `r` that `Div` and `Mod` write satisfy
`u = q * v + r` modulo 2^64, `|r| < |v|`, and `r` is zero or has the dividend's sign; short of `MIN / -1`, which wraps
to `MIN`, the quotient is the exact one, no farther from zero than the true ratio. -/
def Obligations.DivisionLaws : Prop :=
  ∀ (s t t' : State) (f : Frame) (callers : List Frame) (w p q : Nat) (u v d r : Payload),
    Active s f callers → w < f.size → IntSources s f p q u v → v ≠ 0 →
    exec (.div w p q) s = .next t → t.slotAt (f.base + w) = .int d →
    exec (.mod w p q) s = .next t' → t'.slotAt (f.base + w) = .int r →
    u = d * v + r ∧ r.toInt.natAbs < v.toInt.natAbs ∧ (r.toInt = 0 ∨ r.toInt.sign = u.toInt.sign) ∧
    (if u.toInt = -(2 ^ 63) ∧ v.toInt = -1 then d = u ∧ r = 0
     else u.toInt = d.toInt * v.toInt + r.toInt ∧ (d.toInt * v.toInt).natAbs ≤ u.toInt.natAbs)

/-! ## Floating point -/

/-- 43_float_arithmetic.md R191: `FAdd` writes the binary64 sum as a `Float`, some NaN where the sum is a
NaN. Which NaN is a draw (log 7); the counter the draw advances is the model's own (log 6). -/
def Obligations.FAddWritesSumOrNaN : Prop :=
  ∀ (s : State) (f : Frame) (callers : List Frame) (w p q : Nat) (u v : Payload),
    Active s f callers → w < f.size → FloatSources s f p q u v →
    ∃ t r, exec (.fAdd w p q) s = .next t ∧ WroteRegister s f callers w (.float r) 1 t ∧
      (f64Add u v = some r ∨ (f64Add u v = none ∧ f64IsNaN r = true))

/-- 43_float_arithmetic.md R192: `FDiv` with a divisor that is no zero writes the binary64 quotient, some NaN
where it is a NaN (which one is a draw, log 7; its counter is the model's own, log 6); a divisor of either
zero raises `ArithmeticFault`. -/
def Obligations.FDivWritesQuotientOrFaults : Prop :=
  ∀ (s : State) (f : Frame) (callers : List Frame) (w p q : Nat) (u v : Payload),
    Active s f callers → w < f.size → FloatSources s f p q u v →
    (v ≠ 0x0000000000000000 → v ≠ 0x8000000000000000 →
      ∃ t r, exec (.fDiv w p q) s = .next t ∧ WroteRegister s f callers w (.float r) 1 t ∧
        (f64Div u v = some r ∨ (f64Div u v = none ∧ f64IsNaN r = true))) ∧
    ((v = 0x0000000000000000 ∨ v = 0x8000000000000000) →
      exec (.fDiv w p q) s = .next (faulted s f callers .arithmeticFault))

/-- 44_comparison.md R202: `FLt` writes `Int` 1 or 0 on any two floats, NaNs included, and advances. -/
def Obligations.FLtWritesIntComparison : Prop :=
  ∀ (s : State) (f : Frame) (callers : List Frame) (w p q : Nat) (u v : Payload),
    Active s f callers → w < f.size → FloatSources s f p q u v →
    ∃ t, exec (.fLt w p q) s = .next t ∧
      WroteRegister s f callers w (.int (if f64Lt u v = true then 1 else 0)) 0 t

/-- 43_float_arithmetic.md R193: which sums and quotients are NaNs, that every NaN is unordered, and that the
patterns a draw can give are all the NaNs and nothing else (log 7). -/
def Obligations.NaNResultsAreTheInvalidOnes : Prop :=
  (∀ u v, f64Add u v = none ↔ f64IsNaN u = true ∨ f64IsNaN v = true ∨
    (f64IsInf u = true ∧ f64IsInf v = true ∧ f64Neg u ≠ f64Neg v)) ∧
  (∀ u v, f64IsZero v = false → (f64Div u v = none ↔ f64IsNaN u = true ∨ f64IsNaN v = true ∨
    (f64IsInf u = true ∧ f64IsInf v = true))) ∧
  (∀ u v r, f64Add u v = some r → f64IsNaN r = false) ∧
  (∀ u v r, f64Div u v = some r → f64IsNaN r = false) ∧
  (∀ u v, (f64IsNaN u = true ∨ f64IsNaN v = true) → f64Lt u v = false) ∧
  (∀ r, f64IsNaN r = true ↔ ∃ neg less, nanPattern neg less = r)

/-- 43_float_arithmetic.md R190, R191: the sum of finite values is the binary64 value nearest to the exact
sum, of even last bit where two are equally near, and the infinity of the sum's sign exactly where the
exact sum is at least half a unit in the last place beyond the largest finite value (IEEE 754's threshold,
log 15). Values count units of 2^-1074. -/
def Obligations.FAddIsCorrectlyRounded : Prop :=
  ∀ u v r : Payload, f64IsFinite u = true → f64IsFinite v = true → f64Add u v = some r →
    (f64IsFinite r = true ↔ (f64Value u + f64Value v).natAbs < (2 ^ 54 - 1) * 2 ^ 2044) ∧
    (f64IsFinite r = false → f64IsInf r = true ∧ (f64Neg r = true ↔ f64Value u + f64Value v < 0)) ∧
    (f64IsFinite r = true → ∀ x, f64IsFinite x = true →
      |f64Value u + f64Value v - f64Value r| ≤ |f64Value u + f64Value v - f64Value x| ∧
      (|f64Value u + f64Value v - f64Value r| = |f64Value u + f64Value v - f64Value x| →
        f64Value x ≠ f64Value r → r.getLsbD 0 = false))

/-- 43_float_arithmetic.md R190, R192: the quotient of finite values, the divisor no zero, is the binary64
value nearest to the exact ratio, of even last bit where two are equally near, and the infinity of the
ratio's sign exactly where the exact ratio is at least half a unit in the last place beyond the largest
finite value; the sign is the exclusive or of the operands' signs (IEEE 754's, log 15). Values count units
of 2^-1074. -/
def Obligations.FDivIsCorrectlyRounded : Prop :=
  ∀ u v r : Payload, f64IsFinite u = true → f64IsFinite v = true → f64IsZero v = false →
    f64Div u v = some r →
    let exact : ℚ := (f64Value u : ℚ) / (f64Value v : ℚ) * 2 ^ 1074
    (f64IsFinite r = true ↔ |exact| < (2 ^ 54 - 1) * 2 ^ 2044) ∧
    (f64IsFinite r = false → f64IsInf r = true) ∧
    (f64Neg r = true ↔ f64Neg u ≠ f64Neg v) ∧
    (f64IsFinite r = true → ∀ x, f64IsFinite x = true →
      |exact - f64Value r| ≤ |exact - f64Value x| ∧
      (|exact - f64Value r| = |exact - f64Value x| → f64Value x ≠ f64Value r → r.getLsbD 0 = false))

/-- 43_float_arithmetic.md R191: a sum that is exactly zero is `-0.0` where both operands are `-0.0` and
`+0.0` otherwise. -/
def Obligations.FAddZeroSums : Prop :=
  ∀ u v : Payload, f64IsFinite u = true → f64IsFinite v = true → f64Value u + f64Value v = 0 →
    f64Add u v = some (if u = 0x8000000000000000 ∧ v = 0x8000000000000000 then 0x8000000000000000 else 0)

/-- 44_comparison.md R202: on finite operands `FLt` is the order of the values, so the two zeros are equal;
the infinities lie beyond every finite value. -/
def Obligations.FLtFollowsValueOrder : Prop :=
  (∀ u v, f64IsFinite u = true → f64IsFinite v = true → (f64Lt u v = true ↔ f64Value u < f64Value v)) ∧
  (∀ u v, f64IsInf u = true → f64IsNaN v = false → (f64Lt u v = true ↔ f64Neg u = true ∧ v ≠ u)) ∧
  (∀ u v, f64IsInf v = true → f64IsNaN u = false → (f64Lt u v = true ↔ f64Neg v = false ∧ u ≠ v))

/-! ## Faults of the register instructions -/

/-- 60_exceptions.md R271: an instruction of two sources tests the bounds of all its registers before any
tag, and the tags before its operation, whatever the other operands hold. -/
def Obligations.SourceFaultsComeInOrder : Prop :=
  ∀ (s : State) (f : Frame) (callers : List Frame) (w p q : Nat), s.stack = f :: callers →
    ∀ i : Instr, ∀ tag : Tag,
    ((tag = .int ∧ (i = .add w p q ∨ i = .sub w p q ∨ i = .mult w p q ∨ i = .div w p q ∨
        i = .mod w p q ∨ i = .lt w p q)) ∨
      (tag = .float ∧ (i = .fAdd w p q ∨ i = .fDiv w p q ∨ i = .fLt w p q)) ∨
      (tag = .int ∧ i = .neg w p ∧ q = p)) →
    ((f.size ≤ w ∨ f.size ≤ p ∨ f.size ≤ q) → exec i s = .next (faulted s f callers .indexFault)) ∧
    (w < f.size → p < f.size → q < f.size →
      ((s.slotAt (f.base + p)).tag ≠ tag ∨ (s.slotAt (f.base + q)).tag ≠ tag) →
      exec i s = .next (faulted s f callers .typeFault))

/-- 42_integer_arithmetic.md R174, R175: `Div` and `Mod` by integer zero raise `ArithmeticFault` and write
nothing. -/
def Obligations.IntegerZeroDivisorFaults : Prop :=
  ∀ (s : State) (f : Frame) (callers : List Frame) (w p q : Nat) (u : Payload),
    s.stack = f :: callers → w < f.size → IntSources s f p q u 0 →
    exec (.div w p q) s = .next (faulted s f callers .arithmeticFault) ∧
    exec (.mod w p q) s = .next (faulted s f callers .arithmeticFault)

/-! ## Jumps -/

/-- 45_jumps.md R216, R219, R222, R225: an unconditional jump whose target lies in the instruction store
sets `ip` to it and changes nothing else; absolute targets count from the frame's code base, relative
ones from the instruction after the jump. -/
def Obligations.UnconditionalJumpsLand : Prop :=
  ∀ (s : State) (f : Frame) (callers : List Frame), s.stack = f :: callers →
    (∀ target : Nat, InCode s (f.codeBase + target) →
      exec (.jmp target) s = .next (withIp s f callers (f.codeBase + target))) ∧
    (∀ offset : Int, InCode s (f.ip + 1 + offset) →
      exec (.rJmp offset) s = .next (withIp s f callers (f.ip + 1 + offset).toNat)) ∧
    (∀ index v, JumpConst s index v → InCode s (f.codeBase + v) →
      exec (.jmpC index) s = .next (withIp s f callers (f.codeBase + v).toNat)) ∧
    (∀ index v, JumpConst s index v → InCode s (f.ip + 1 + v) →
      exec (.rJmpC index) s = .next (withIp s f callers (f.ip + 1 + v).toNat))

/-- 45_jumps.md R213, R217, R218, R223, R224: a conditional jump is taken when its guard's boolean matches
its suffix and then lands on a target inside the instruction store; not taken it falls through, whatever
its target. -/
def Obligations.GuardedJumpsLandOrFallThrough : Prop :=
  ∀ (s : State) (f : Frame) (callers : List Frame) (reg : Nat) (g : Bool),
    s.stack = f :: callers → Guard s f reg g →
    (∀ target : Nat,
      (g = true → InCode s (f.codeBase + target) →
        exec (.jmpT reg target) s = .next (withIp s f callers (f.codeBase + target))) ∧
      (g = false → exec (.jmpT reg target) s = .next (withIp s f callers (f.ip + 1))) ∧
      (g = false → InCode s (f.codeBase + target) →
        exec (.jmpF reg target) s = .next (withIp s f callers (f.codeBase + target))) ∧
      (g = true → exec (.jmpF reg target) s = .next (withIp s f callers (f.ip + 1)))) ∧
    (∀ offset : Int,
      (g = true → InCode s (f.ip + 1 + offset) →
        exec (.rJmpT reg offset) s = .next (withIp s f callers (f.ip + 1 + offset).toNat)) ∧
      (g = false → exec (.rJmpT reg offset) s = .next (withIp s f callers (f.ip + 1))) ∧
      (g = false → InCode s (f.ip + 1 + offset) →
        exec (.rJmpF reg offset) s = .next (withIp s f callers (f.ip + 1 + offset).toNat)) ∧
      (g = true → exec (.rJmpF reg offset) s = .next (withIp s f callers (f.ip + 1))))

/-- 45_jumps.md R220, R221, R226, R227: the conditional jumps through a `Jump` constant, taken and not. -/
def Obligations.GuardedConstantJumpsLandOrFallThrough : Prop :=
  ∀ (s : State) (f : Frame) (callers : List Frame) (reg index : Nat) (g : Bool) (v : Int),
    s.stack = f :: callers → Guard s f reg g → JumpConst s index v →
    (g = true → InCode s (f.codeBase + v) →
      exec (.jmpTC reg index) s = .next (withIp s f callers (f.codeBase + v).toNat)) ∧
    (g = false → exec (.jmpTC reg index) s = .next (withIp s f callers (f.ip + 1))) ∧
    (g = false → InCode s (f.codeBase + v) →
      exec (.jmpFC reg index) s = .next (withIp s f callers (f.codeBase + v).toNat)) ∧
    (g = true → exec (.jmpFC reg index) s = .next (withIp s f callers (f.ip + 1))) ∧
    (g = true → InCode s (f.ip + 1 + v) →
      exec (.rJmpTC reg index) s = .next (withIp s f callers (f.ip + 1 + v).toNat)) ∧
    (g = false → exec (.rJmpTC reg index) s = .next (withIp s f callers (f.ip + 1))) ∧
    (g = false → InCode s (f.ip + 1 + v) →
      exec (.rJmpFC reg index) s = .next (withIp s f callers (f.ip + 1 + v).toNat)) ∧
    (g = true → exec (.rJmpFC reg index) s = .next (withIp s f callers (f.ip + 1)))

/-- 45_jumps.md R212: a taken jump whose target is negative or at or beyond the end of the instruction store
raises `IndexFault` and leaves `ip` where it is. -/
def Obligations.TakenJumpsOutOfRangeFault : Prop :=
  ∀ (s : State) (f : Frame) (callers : List Frame), s.stack = f :: callers →
    let out : Host.Outcome State Fault Refusal := .next (faulted s f callers .indexFault)
    (∀ target : Nat, ¬InCode s (f.codeBase + target) → exec (.jmp target) s = out ∧
      ∀ reg, (Guard s f reg true → exec (.jmpT reg target) s = out) ∧
        (Guard s f reg false → exec (.jmpF reg target) s = out)) ∧
    (∀ offset : Int, ¬InCode s (f.ip + 1 + offset) → exec (.rJmp offset) s = out ∧
      ∀ reg, (Guard s f reg true → exec (.rJmpT reg offset) s = out) ∧
        (Guard s f reg false → exec (.rJmpF reg offset) s = out)) ∧
    (∀ index v, JumpConst s index v → ¬InCode s (f.codeBase + v) → exec (.jmpC index) s = out ∧
      ∀ reg, (Guard s f reg true → exec (.jmpTC reg index) s = out) ∧
        (Guard s f reg false → exec (.jmpFC reg index) s = out)) ∧
    (∀ index v, JumpConst s index v → ¬InCode s (f.ip + 1 + v) → exec (.rJmpC index) s = out ∧
      ∀ reg, (Guard s f reg true → exec (.rJmpTC reg index) s = out) ∧
        (Guard s f reg false → exec (.rJmpFC reg index) s = out))

/-- 45_jumps.md R215: the operand checks of a jump, made whether or not it is taken, in the order register
bounds, constant bounds, guard tag, constant kind. -/
def Obligations.JumpOperandChecksComeInOrder : Prop :=
  ∀ (s : State) (f : Frame) (callers : List Frame), s.stack = f :: callers →
    let index : Host.Outcome State Fault Refusal := .next (faulted s f callers .indexFault)
    let type : Host.Outcome State Fault Refusal := .next (faulted s f callers .typeFault)
    (∀ reg i, ((∃ target, i = .jmpT reg target ∨ i = .jmpF reg target) ∨
        ∃ offset, i = .rJmpT reg offset ∨ i = .rJmpF reg offset) →
      (f.size ≤ reg → exec i s = index) ∧
      (reg < f.size → (s.slotAt (f.base + reg)).tag ≠ .int → exec i s = type)) ∧
    (∀ k i, (i = .jmpC k ∨ i = .rJmpC k) →
      (s.poolLen ≤ k → exec i s = index) ∧
      (∀ e, s.pool[k]? = some e → e.kind ≠ .jump → exec i s = type)) ∧
    (∀ reg k i, (i = .jmpTC reg k ∨ i = .jmpFC reg k ∨ i = .rJmpTC reg k ∨ i = .rJmpFC reg k) →
      ((f.size ≤ reg ∨ s.poolLen ≤ k) → exec i s = index) ∧
      (∀ e, reg < f.size → s.pool[k]? = some e →
        ((s.slotAt (f.base + reg)).tag ≠ .int ∨ e.kind ≠ .jump) → exec i s = type))

/-- 45_jumps.md R222: `RJmp 0` is the fall-through, except in the last word of the store, where it faults. -/
def Obligations.RJmpZeroFallsThroughExceptLast : Prop :=
  ∀ (s : State) (f : Frame) (callers : List Frame), s.stack = f :: callers →
    (f.ip + 1 < s.codeLen → exec (.rJmp 0) s = exec .nop s) ∧
    (f.ip + 1 = s.codeLen → exec (.rJmp 0) s = .next (faulted s f callers .indexFault))

/-! ## Call and Ret -/

/-- 46_call_return.md R241, R242: where every check passes, `Call` pushes the callee's frame right above the
caller's window, passes the arguments whole into the leading slots, leaves every other slot of the new
window `Invalid` and every other slot of the arena unchanged, and advances the caller. -/
def Obligations.CallBuildsFrameAndWindow : Prop :=
  ∀ (s : State) (f : Frame) (callers : List Frame) (n start func : Nat) (e : Const),
    s.stack = f :: callers → (0 < n → start + n ≤ f.size) → s.pool[func]? = some e → e.kind = .jump →
    InCode s e.value.toInt → n ≤ e.window → s.depth < s.maxDepth →
    f.base + f.size + e.window ≤ s.regfileSize →
    ∃ t callee, exec (.call n start func) s = .next t ∧
      t.stack = callee :: { f with ip := f.ip + 1 } :: callers ∧ t.depth = s.depth + 1 ∧
      (callee.ip : Int) = e.value.toInt ∧ callee.base = f.base + f.size ∧ callee.size = e.window ∧
      callee.nret = e.nret ∧ callee.retdst = start ∧ (callee.codeBase : Int) = e.value.toInt ∧
      (∀ k, k < n → t.slotAt (f.base + f.size + k) = s.slotAt (f.base + start + k)) ∧
      (∀ k, n ≤ k → k < e.window → t.slotAt (f.base + f.size + k) = .invalid) ∧
      (∀ k, (k < f.base + f.size ∨ f.base + f.size + e.window ≤ k) → t.slotAt k = s.slotAt k) ∧
      SameUnit s t ∧ t.run = s.run ∧ t.result = s.result ∧ t.out = s.out ∧ t.nanDraws = s.nanDraws

/-- 46_call_return.md R241, R243: the faults of `Call`, in its rule's order. -/
def Obligations.CallFaultsComeInOrder : Prop :=
  ∀ (s : State) (f : Frame) (callers : List Frame) (n start func : Nat), s.stack = f :: callers →
    let fails (k : FaultKind) : Prop := exec (.call n start func) s = .next (faulted s f callers k)
    if 0 < n ∧ f.size < start + n then fails .indexFault
    else if s.poolLen ≤ func then fails .indexFault
    else ∀ e, s.pool[func]? = some e →
      if e.kind ≠ .jump then fails .typeFault
      else if e.value.toInt < 0 ∨ (s.codeLen : Int) ≤ e.value.toInt then fails .indexFault
      else if e.window < n then fails .indexFault
      else if s.maxDepth ≤ s.depth then fails .stackOverflowFault
      else s.regfileSize < f.base + f.size + e.window → fails .stackOverflowFault

/-- 46_call_return.md R244: where every check passes, `Ret` in a called frame copies the return values whole
into the caller's return-destination slots, changes no other slot, and pops its frame; the caller resumes
at the instruction pointer it was left with. -/
def Obligations.RetCopiesValuesAndPops : Prop :=
  ∀ (s : State) (f c : Frame) (rest : List Frame) (n start : Nat),
    s.stack = f :: c :: rest → f.base = c.base + c.size → f.base + f.size ≤ s.regfileSize →
    (0 < n → start + n ≤ f.size) → n = f.nret → (0 < n → f.retdst + n ≤ c.size) →
    ∃ t, exec (.ret n start) s = .next t ∧ t.stack = c :: rest ∧
      (∀ k, k < n → t.slotAt (c.base + f.retdst + k) = s.slotAt (f.base + start + k)) ∧
      (∀ k, (k < c.base + f.retdst ∨ c.base + f.retdst + n ≤ k) → t.slotAt k = s.slotAt k) ∧
      SameUnit s t ∧ t.run = s.run ∧ t.result = s.result ∧ t.out = s.out ∧ t.nanDraws = s.nanDraws

/-- 46_call_return.md R244: a `Ret` in a called frame whose source registers leave its window, whose count is
not the expected one, or whose destination leaves the caller's window, raises `IndexFault`. -/
def Obligations.RetFaultsOnBadCounts : Prop :=
  ∀ (s : State) (f c : Frame) (rest : List Frame) (n start : Nat), s.stack = f :: c :: rest →
    ((0 < n ∧ f.size < start + n) ∨ n ≠ f.nret ∨ (0 < n ∧ c.size < f.retdst + n)) →
    exec (.ret n start) s = .next (faulted s f (c :: rest) .indexFault)

/-- 46_call_return.md R245: `Ret` in the outermost frame ends the program with the named slots, tag and
payload, in register order, and changes nothing else; out of the window it raises `IndexFault`. -/
def Obligations.OutermostRetEndsProgram : Prop :=
  ∀ (s : State) (f : Frame) (n start : Nat), s.stack = [f] →
    ((0 < n → start + n ≤ f.size) →
      ∃ vs, exec (.ret n start) s = .next { s with run := .halted, result := .normal vs } ∧
        vs.length = n ∧ ∀ k, k < n → vs[k]? = some (s.slotAt (f.base + start + k))) ∧
    (0 < n → f.size < start + n → exec (.ret n start) s = .next (faulted s f [] .indexFault))

/-- 46_call_return.md R246: from a `Call` of `N` arguments at register `S` to the matching `Ret` of `M` values
from register `R`, however many steps and inner calls lie between, the caller's window is restored except
for its registers `S` to `S+M-1`, which hold the callee's registers `R` to `R+M-1`; the windows below it,
the frames and the depth are as before, and the caller stands at the instruction after the `Call`. -/
def Obligations.CallThenRetRestoresCaller : Prop :=
  ∀ (s s1 s2 s3 : State) (f : Frame) (callers : List Frame) (w w' : Word) (N S K M R n : Nat),
    s.run = .running → StackInv s → s.stack = f :: callers →
    s.code[f.ip]? = some w → decode w = .ok (.call N S K) → step s = .next s1 → s1.run = .running →
    ReachedFrom s1 n s2 → (∀ m u, m ≤ n → ReachedFrom s1 m u → s.depth < u.depth) →
    s2.run = .running → s2.depth = s.depth + 1 → s2.code[s2.ip]? = some w' →
    decode w' = .ok (.ret M R) → step s2 = .next s3 → s3.run = .running →
    s3.stack = { f with ip := f.ip + 1 } :: callers ∧ s3.depth = s.depth ∧
    (∀ k, k < f.size → s3.slotAt (f.base + k) =
      if S ≤ k ∧ k < S + M then s2.slotAt (f.base + f.size + R + (k - S)) else s.slotAt (f.base + k)) ∧
    (∀ k, k < f.base → s3.slotAt k = s.slotAt k)

/-! ## Rules of the whole machine -/

/-- 60_exceptions.md R268, R270: whatever instruction raises a fault, the descriptor names the active frame's
`ip` and the depth, the dispatcher halts, and nothing else has changed. -/
def Obligations.FaultsArePrecise : Prop :=
  ∀ (i : Instr) (s t : State) (k : FaultKind) (ip depth : Nat), s.run = .running →
    exec i s = .next t → t.run = .halted → t.result = .fault k ip depth →
    ip = s.ip ∧ depth = s.depth ∧ t = { s with run := .halted, result := .fault k s.ip s.depth }

/-- An instruction raises only the fault kinds its row of the table gives it. The table is 60_exceptions.md
R275, which the spec marks as derived from the instruction rules of files 40 to 46. -/
def Obligations.OnlyTabledFaultsAreRaised : Prop :=
  ∀ (i : Instr) (s t : State) (k : FaultKind) (ip depth : Nat), s.run = .running →
    exec i s = .next t → t.run = .halted → t.result = .fault k ip depth → k ∈ mayRaise i

/-- 10_state.md R42, 20_memory.md R61, R68: no step changes the instruction store, the constant pool, the
configuration or the size of the register file. -/
def Obligations.UnitAndConfigurationNeverChange : Prop :=
  ∀ s t : State, step s = .next t → SameUnit s t

/-- 10_state.md R41: the print log only grows, by one numeric slot of the active window, and only at a
`Print`. -/
def Obligations.OnlyPrintAppendsToLog : Prop :=
  ∀ (i : Instr) (s t : State), exec i s = .next t →
    t.out = s.out ∨
      ∃ reg f callers v, i = .print reg ∧ s.stack = f :: callers ∧ reg < f.size ∧
        v = s.slotAt (f.base + reg) ∧ (v.tag = .int ∨ v.tag = .float) ∧ t.out = s.out ++ [v]

/-- 40_dispatch.md R136: an instruction that is no jump, `Call` or `Ret` and does not fault advances `ip` by
one and leaves the rest of the call stack alone. -/
def Obligations.DefaultAdvanceByOneWord : Prop :=
  ∀ (i : Instr) (s t : State), transfersControl i = false → s.run = .running → exec i s = .next t →
    t.run = .running →
    ∃ f callers, s.stack = f :: callers ∧ t.stack = { f with ip := f.ip + 1 } :: callers

/-- 10_state.md R24: an instruction other than `Call` and `Ret` changes at most one slot of the arena, inside
the active window; a jump changes none. -/
def Obligations.OnlyActiveWindowIsWritten : Prop :=
  ∀ (i : Instr) (s t : State) (f : Frame) (callers : List Frame), s.stack = f :: callers →
    i.opcode ≠ 0x50 → i.opcode ≠ 0x51 → exec i s = .next t →
    t.rf = s.rf ∨ (transfersControl i = false ∧ ∃ w r, w < f.size ∧ t.rf = s.rf.set (f.base + w) r)

/-- 40_dispatch.md R134: a running machine halts in three ways only: the stream is exhausted, the outermost
frame returns, or a fault is taken; the register file, the call stack and the print log keep their
values. -/
def Obligations.RunsEndOnlyThreeWays : Prop :=
  ∀ (s t : State), s.run = .running → step s = .next t → t.run = .halted →
    t = { s with run := .halted, result := t.result } ∧
    ((t.result = .normal [] ∧ s.codeLen ≤ s.ip) ∨
      (∃ w n start vs, s.depth = 1 ∧ s.code[s.ip]? = some w ∧ decode w = .ok (.ret n start) ∧
        t.result = .normal vs ∧ vs.length = n) ∨
      (∃ k, t.result = .fault k s.ip s.depth))

/-- The invariants of the call stack are kept by every step, from any state that has them. They are
46_call_return.md R247's, which the spec marks as derived from R241, R244 and R45. That an empty store bounds no
code base is the model's (log 2). -/
def Obligations.StepKeepsStackInvariant : Prop :=
  ∀ s t : State, StackInv s → step s = .next t → StackInv t

/-- Reset has the invariants of the call stack and no vector slot. That State.reset holds no unit is the
model's choice (log 2). -/
def Obligations.ResetHasInvariants : Prop :=
  StackInv State.reset ∧ VectorFree State.reset

/-- The invariants of the call stack hold in every running state reached from a launch. They are
46_call_return.md R247's, which the spec marks as derived from R241, R244 and R45. -/
def Obligations.ReachableStatesAreWellStacked : Prop :=
  ∀ (cfg : Config) (code : List Word) (pool : List Const) (s0 t : State) (n : Nat),
    boot cfg code pool = some s0 → ReachedFrom s0 n t → t.run = .running →
    1 ≤ t.depth ∧ t.depth ≤ t.maxDepth ∧ Chained t.stack ∧
    (∀ f, t.stack.head? = some f → f.base + f.size ≤ t.regfileSize) ∧
    (∀ f, f ∈ t.stack → f.ip ≤ t.codeLen ∧ f.codeBase < t.codeLen)

/-- 10_state.md R22, R26: no step makes a slot of tag `Vec`. -/
def Obligations.StepKeepsVectorFree : Prop :=
  ∀ s t : State, VectorFree s → step s = .next t → VectorFree t

/-- 60_exceptions.md R267: `DecodeFault` is raised exactly on a fetched word whose opcode is unassigned, and
no state reached from a launch carries it; nor does a running one fetch a constant index beyond the pool
(20_memory.md R66, 70_reset_and_hazards.md R313). That a halted state keeps its result is log 12; that a
running state, whose result has no meaning (10_state.md R40), carries none either is the model's, by its
`Normal []` at reset (log 4). -/
def Obligations.LoadedUnitNeverRaisesDecodeFault : Prop :=
  (∀ (s t : State) (ip depth : Nat), s.run = .running → step s = .next t → t.run = .halted →
    (t.result = .fault .decodeFault ip depth ↔
      ip = s.ip ∧ depth = s.depth ∧ ∃ w, s.code[s.ip]? = some w ∧ opcodeOf w ∉ assignedOpcodes)) ∧
  (∀ (cfg : Config) (code : List Word) (pool : List Const) (s0 t : State) (n : Nat),
    boot cfg code pool = some s0 → ReachedFrom s0 n t →
    (∀ ip depth, t.result ≠ .fault .decodeFault ip depth) ∧
    (t.run = .running → ∀ w, t.code[t.ip]? = some w → ¬BadWord t.poolLen w))

/-- A running machine never stops short of the spec's own end (10_state.md R30, 40_dispatch.md R131): in every
state with the call stack's invariants a running step answers a next state, and so it does in every running
state reached from a launch. The invariants shut out the model's own stop, an empty call stack (log 10). -/
def Obligations.RunningStepHasNextState : Prop :=
  (∀ s : State, StackInv s → s.run = .running → ∃ t, step s = .next t) ∧
  (∀ (cfg : Config) (code : List Word) (pool : List Const) (s0 s : State) (n : Nat),
    boot cfg code pool = some s0 → ReachedFrom s0 n s → s.run = .running → ∃ t, step s = .next t)

/-- 10_state.md R44, 70_reset_and_hazards.md R312: what stands in the arena above the active window cannot be
observed: two well-stacked states that differ there alone give the same dispatcher state, result, print
log and call stack after any number of steps. Steps after the halt are the model's (log 12). -/
def Obligations.StaleSlotsAreInvisible : Prop :=
  ∀ (s s' t : State) (n : Nat), StackInv s → AgreeInWindows s s' → ReachedFrom s n t →
    ∃ t', ReachedFrom s' n t' ∧ t'.run = t.run ∧ t'.result = t.result ∧ t'.out = t.out ∧
      t'.stack = t.stack ∧
      ∀ f, t.stack.head? = some f → ∀ k, k < f.base + f.size → t'.slotAt k = t.slotAt k

/-- 30_encoding.md R111: a relative jump whose offset was resolved from a label lands on the label. -/
def Obligations.LabelOffsetsReachTheirLabel : Prop :=
  ∀ (s : State) (f : Frame) (callers : List Frame) (label : Nat), s.stack = f :: callers →
    label < s.codeLen →
    exec (.rJmp (labelOffset label f.ip)) s = .next (withIp s f callers label)

/-- 43_float_arithmetic.md R192: a finite dividend over an infinity gives a zero of the quotient's sign. The
other cases are IEEE 754's (log 15): an infinity plus any value but a NaN or the opposite infinity is that
infinity, and an infinity over a finite divisor is an infinity of the quotient's sign. -/
def Obligations.InfiniteOperandsGiveInfinitiesOrZeros : Prop :=
  ∀ (s : State) (f : Frame) (callers : List Frame) (w p q : Nat) (u v : Payload),
    Active s f callers → w < f.size → FloatSources s f p q u v →
    let writes (i : Instr) (r : Payload) : Prop :=
      ∃ t, exec i s = .next t ∧ WroteRegister s f callers w (.float r) 1 t
    (f64IsInf u = true → f64IsNaN v = false → (f64IsInf v = true → f64Neg v = f64Neg u) →
      writes (.fAdd w p q) u) ∧
    (f64IsInf v = true → f64IsNaN u = false → (f64IsInf u = true → f64Neg u = f64Neg v) →
      writes (.fAdd w p q) v) ∧
    (f64IsFinite u = true → f64IsInf v = true →
      writes (.fDiv w p q) (if f64Neg u = f64Neg v then 0x0000000000000000 else 0x8000000000000000)) ∧
    (f64IsInf u = true → f64IsFinite v = true → f64IsZero v = false →
      writes (.fDiv w p q) (if f64Neg u = f64Neg v then 0x7FF0000000000000 else 0xFFF0000000000000))
end

