-- ==== Sys2Proof/Laws/Decode.lean ====
section
/-! SUPPORT. Bit fields of packed words, and sign-reading undoing sign-writing. -/

namespace Sys2Proof

/-- A packed word's value, where it fits in 64 bits. -/
theorem toNat_ofNat_word {n : Nat} (h : n < 2 ^ 64) : (BitVec.ofNat 64 n).toNat = n := by
  rw [BitVec.toNat_ofNat, Nat.mod_eq_of_lt h]

/-- The opcode byte of a packed word of shape A, and its field. -/
theorem pack_shapeA {op arg : Nat} (ho : op < 2 ^ 8) (ha : arg < 2 ^ 56) :
    bitsOf (packWord op (.shapeA arg)) 7 0 = op ∧ bitsOf (packWord op (.shapeA arg)) 63 8 = arg := by
  have h : arg * 2 ^ 8 + op < 2 ^ 64 := by omega
  simp only [bitsOf, packWord, toNat_ofNat_word h]
  omega

/-- The opcode byte of a packed word of shape B, and its fields. -/
theorem pack_shapeB {op a b : Nat} (ho : op < 2 ^ 8) (ha : a < 2 ^ 24) (hb : b < 2 ^ 32) :
    bitsOf (packWord op (.shapeB a b)) 7 0 = op ∧ bitsOf (packWord op (.shapeB a b)) 31 8 = a ∧
      bitsOf (packWord op (.shapeB a b)) 63 32 = b := by
  have h : b * 2 ^ 32 + a * 2 ^ 8 + op < 2 ^ 64 := by omega
  simp only [bitsOf, packWord, toNat_ofNat_word h]
  omega

/-- The opcode byte of a packed word of shape C, its fields, and its unused bits, which are zero. -/
theorem pack_shapeC {op a b c : Nat} (ho : op < 2 ^ 8) (ha : a < 2 ^ 16) (hb : b < 2 ^ 16)
    (hc : c < 2 ^ 16) :
    bitsOf (packWord op (.shapeC a b c)) 7 0 = op ∧ bitsOf (packWord op (.shapeC a b c)) 23 8 = a ∧
      bitsOf (packWord op (.shapeC a b c)) 39 24 = b ∧ bitsOf (packWord op (.shapeC a b c)) 55 40 = c ∧
      bitsOf (packWord op (.shapeC a b c)) 63 56 = 0 := by
  have h : c * 2 ^ 40 + b * 2 ^ 24 + a * 2 ^ 8 + op < 2 ^ 64 := by omega
  simp only [bitsOf, packWord, toNat_ofNat_word h]
  omega

/-- The raw decoding of a word whose opcode has shape A, from its bit ranges. -/
theorem decodeRaw_shapeA {w : Word} {op arg : Nat} (ho : opcodeOf w = op) (hs : shapeOf op = .A)
    (ha : bitsOf w 63 8 = arg) : decodeRaw w = (op, .shapeA arg) := by
  unfold decodeRaw
  rw [ho, hs, fieldsOf, ha]

/-- The raw decoding of a word whose opcode has shape B, from its bit ranges. -/
theorem decodeRaw_shapeB {w : Word} {op a b : Nat} (ho : opcodeOf w = op) (hs : shapeOf op = .B)
    (ha : bitsOf w 31 8 = a) (hb : bitsOf w 63 32 = b) : decodeRaw w = (op, .shapeB a b) := by
  unfold decodeRaw
  rw [ho, hs, fieldsOf, ha, hb]

/-- The raw decoding of a word whose opcode has shape C, from its bit ranges. -/
theorem decodeRaw_shapeC {w : Word} {op a b c : Nat} (ho : opcodeOf w = op) (hs : shapeOf op = .C)
    (ha : bitsOf w 23 8 = a) (hb : bitsOf w 39 24 = b) (hc : bitsOf w 55 40 = c) :
    decodeRaw w = (op, .shapeC a b c) := by
  unfold decodeRaw
  rw [ho, hs, fieldsOf, ha, hb, hc]

/-- An offset of 56 bits survives its field. -/
theorem signedField_truncField_56 {z : Int} (h : -(2 ^ 55) ≤ z) (h' : z < 2 ^ 55) :
    signedField 56 (truncField 56 z) = z := by
  simp only [signedField, truncField]
  omega

/-- An offset of 32 bits survives its field. -/
theorem signedField_truncField_32 {z : Int} (h : -(2 ^ 31) ≤ z) (h' : z < 2 ^ 31) :
    signedField 32 (truncField 32 z) = z := by
  simp only [signedField, truncField]
  omega

/-- A truncated offset fits its field. -/
theorem truncField_lt (width : Nat) (z : Int) : truncField width z < 2 ^ width := by
  have h : (0 : Int) < 2 ^ width := by positivity
  have h0 := Int.emod_nonneg z (ne_of_gt h)
  have h1 := Int.emod_lt_of_pos z h
  have : ((z % 2 ^ width).toNat : Int) < ((2 ^ width : Nat) : Int) := by
    rw [Int.toNat_of_nonneg h0]; push_cast; exact h1
  exact_mod_cast this

/-- Every opcode value fits the opcode byte. -/
theorem Instr.opcode_lt (i : Instr) : i.opcode < 2 ^ 8 := by cases i <;> simp [Instr.opcode]

theorem fitsUnsigned_iff {width v : Nat} : fitsUnsigned width v = true ↔ v < 2 ^ width := by
  simp [fitsUnsigned]

theorem fitsSigned_iff {width : Nat} {v : Int} :
    fitsSigned width v = true ↔ -(2 ^ (width - 1)) ≤ v ∧ v < 2 ^ (width - 1) := by
  simp [fitsSigned]

theorem fitsC_iff {a b c : Nat} : fitsC a b c = true ↔ a < 2 ^ 16 ∧ b < 2 ^ 16 ∧ c < 2 ^ 16 := by
  simp [fitsC, fitsUnsigned, and_assoc]

theorem fitsB_iff {a b : Nat} : fitsB a b = true ↔ a < 2 ^ 24 ∧ b < 2 ^ 32 := by
  simp [fitsB, fitsUnsigned]

end Sys2Proof
end

