-- ==== Sys2Proof/Laws/Float.lean ====
section
/-! SUPPORT. The fields of a packed binary64 pattern. -/

namespace Sys2Proof.Machine

theorem f64Pack_toNat {neg : Bool} {mag : Nat} (h : mag < 2 ^ 63) :
    (f64Pack neg mag).toNat = (if neg then 2 ^ 63 else 0) + mag := by
  rw [f64Pack, BitVec.toNat_ofNat]
  cases neg <;> simp only [Bool.false_eq_true, if_true, if_false] <;> omega

/-- The sign of a packed pattern. -/
@[simp] theorem f64Neg_pack {neg : Bool} {mag : Nat} (h : mag < 2 ^ 63) : f64Neg (f64Pack neg mag) = neg := by
  rw [f64Neg, f64Pack_toNat h]
  cases neg <;> simp
  omega

/-- The magnitude pattern of a packed pattern. -/
@[simp] theorem f64Mag_pack {neg : Bool} {mag : Nat} (h : mag < 2 ^ 63) : f64Mag (f64Pack neg mag) = mag := by
  rw [f64Mag, f64Pack_toNat h]
  cases neg <;> simp only [Bool.false_eq_true, if_true, if_false] <;> omega

end Sys2Proof.Machine
end

