-- ==== Sys2Proof/Laws/State.lean ====
section
/-! SUPPORT. One lemma per field per update of State, and what the derived readers see of an update. -/

namespace Sys2Proof.Machine

variable (s : State)


/-! ## `State.withRf` -/

@[simp] theorem State.withRf_code (r : List Slot) : (s.withRf r).code = s.code := rfl
@[simp] theorem State.withRf_pool (r : List Slot) : (s.withRf r).pool = s.pool := rfl
@[simp] theorem State.withRf_maxDepth (r : List Slot) : (s.withRf r).maxDepth = s.maxDepth := rfl
@[simp] theorem State.withRf_entryWindow (r : List Slot) : (s.withRf r).entryWindow = s.entryWindow := rfl
@[simp] theorem State.withRf_rf (r : List Slot) : (s.withRf r).rf = r := rfl
@[simp] theorem State.withRf_stack (r : List Slot) : (s.withRf r).stack = s.stack := rfl
@[simp] theorem State.withRf_run (r : List Slot) : (s.withRf r).run = s.run := rfl
@[simp] theorem State.withRf_result (r : List Slot) : (s.withRf r).result = s.result := rfl
@[simp] theorem State.withRf_out (r : List Slot) : (s.withRf r).out = s.out := rfl
@[simp] theorem State.withRf_nanDraws (r : List Slot) : (s.withRf r).nanDraws = s.nanDraws := rfl

/-! ## `State.withStack` -/

@[simp] theorem State.withStack_code (fs : List Frame) : (s.withStack fs).code = s.code := rfl
@[simp] theorem State.withStack_pool (fs : List Frame) : (s.withStack fs).pool = s.pool := rfl
@[simp] theorem State.withStack_maxDepth (fs : List Frame) : (s.withStack fs).maxDepth = s.maxDepth := rfl
@[simp] theorem State.withStack_entryWindow (fs : List Frame) : (s.withStack fs).entryWindow = s.entryWindow := rfl
@[simp] theorem State.withStack_rf (fs : List Frame) : (s.withStack fs).rf = s.rf := rfl
@[simp] theorem State.withStack_stack (fs : List Frame) : (s.withStack fs).stack = fs := rfl
@[simp] theorem State.withStack_run (fs : List Frame) : (s.withStack fs).run = s.run := rfl
@[simp] theorem State.withStack_result (fs : List Frame) : (s.withStack fs).result = s.result := rfl
@[simp] theorem State.withStack_out (fs : List Frame) : (s.withStack fs).out = s.out := rfl
@[simp] theorem State.withStack_nanDraws (fs : List Frame) : (s.withStack fs).nanDraws = s.nanDraws := rfl

/-! ## `State.halt` -/

@[simp] theorem State.halt_code (r : Completion) : (s.halt r).code = s.code := rfl
@[simp] theorem State.halt_pool (r : Completion) : (s.halt r).pool = s.pool := rfl
@[simp] theorem State.halt_maxDepth (r : Completion) : (s.halt r).maxDepth = s.maxDepth := rfl
@[simp] theorem State.halt_entryWindow (r : Completion) : (s.halt r).entryWindow = s.entryWindow := rfl
@[simp] theorem State.halt_rf (r : Completion) : (s.halt r).rf = s.rf := rfl
@[simp] theorem State.halt_stack (r : Completion) : (s.halt r).stack = s.stack := rfl
@[simp] theorem State.halt_run (r : Completion) : (s.halt r).run = .halted := rfl
@[simp] theorem State.halt_result (r : Completion) : (s.halt r).result = r := rfl
@[simp] theorem State.halt_out (r : Completion) : (s.halt r).out = s.out := rfl
@[simp] theorem State.halt_nanDraws (r : Completion) : (s.halt r).nanDraws = s.nanDraws := rfl

/-! ## `State.emit` -/

@[simp] theorem State.emit_code (v : Slot) : (s.emit v).code = s.code := rfl
@[simp] theorem State.emit_pool (v : Slot) : (s.emit v).pool = s.pool := rfl
@[simp] theorem State.emit_maxDepth (v : Slot) : (s.emit v).maxDepth = s.maxDepth := rfl
@[simp] theorem State.emit_entryWindow (v : Slot) : (s.emit v).entryWindow = s.entryWindow := rfl
@[simp] theorem State.emit_rf (v : Slot) : (s.emit v).rf = s.rf := rfl
@[simp] theorem State.emit_stack (v : Slot) : (s.emit v).stack = s.stack := rfl
@[simp] theorem State.emit_run (v : Slot) : (s.emit v).run = s.run := rfl
@[simp] theorem State.emit_result (v : Slot) : (s.emit v).result = s.result := rfl
@[simp] theorem State.emit_out (v : Slot) : (s.emit v).out = s.out ++ [v] := rfl
@[simp] theorem State.emit_nanDraws (v : Slot) : (s.emit v).nanDraws = s.nanDraws := rfl

/-! ## `State.nextDraw` -/

@[simp] theorem State.nextDraw_code : s.nextDraw.code = s.code := rfl
@[simp] theorem State.nextDraw_pool : s.nextDraw.pool = s.pool := rfl
@[simp] theorem State.nextDraw_maxDepth : s.nextDraw.maxDepth = s.maxDepth := rfl
@[simp] theorem State.nextDraw_entryWindow : s.nextDraw.entryWindow = s.entryWindow := rfl
@[simp] theorem State.nextDraw_rf : s.nextDraw.rf = s.rf := rfl
@[simp] theorem State.nextDraw_stack : s.nextDraw.stack = s.stack := rfl
@[simp] theorem State.nextDraw_run : s.nextDraw.run = s.run := rfl
@[simp] theorem State.nextDraw_result : s.nextDraw.result = s.result := rfl
@[simp] theorem State.nextDraw_out : s.nextDraw.out = s.out := rfl
@[simp] theorem State.nextDraw_nanDraws : s.nextDraw.nanDraws = s.nanDraws + 1 := rfl

/-! ## `State.setSlot` -/

@[simp] theorem State.setSlot_code (k : Nat) (v : Slot) : (s.setSlot k v).code = s.code := rfl
@[simp] theorem State.setSlot_pool (k : Nat) (v : Slot) : (s.setSlot k v).pool = s.pool := rfl
@[simp] theorem State.setSlot_maxDepth (k : Nat) (v : Slot) : (s.setSlot k v).maxDepth = s.maxDepth := rfl
@[simp] theorem State.setSlot_entryWindow (k : Nat) (v : Slot) : (s.setSlot k v).entryWindow = s.entryWindow := rfl
@[simp] theorem State.setSlot_rf (k : Nat) (v : Slot) : (s.setSlot k v).rf = s.rf.set k v := rfl
@[simp] theorem State.setSlot_stack (k : Nat) (v : Slot) : (s.setSlot k v).stack = s.stack := rfl
@[simp] theorem State.setSlot_run (k : Nat) (v : Slot) : (s.setSlot k v).run = s.run := rfl
@[simp] theorem State.setSlot_result (k : Nat) (v : Slot) : (s.setSlot k v).result = s.result := rfl
@[simp] theorem State.setSlot_out (k : Nat) (v : Slot) : (s.setSlot k v).out = s.out := rfl
@[simp] theorem State.setSlot_nanDraws (k : Nat) (v : Slot) : (s.setSlot k v).nanDraws = s.nanDraws := rfl

/-! ## `State.setIp` -/

@[simp] theorem State.setIp_code (n : Nat) : (s.setIp n).code = s.code := rfl
@[simp] theorem State.setIp_pool (n : Nat) : (s.setIp n).pool = s.pool := rfl
@[simp] theorem State.setIp_maxDepth (n : Nat) : (s.setIp n).maxDepth = s.maxDepth := rfl
@[simp] theorem State.setIp_entryWindow (n : Nat) : (s.setIp n).entryWindow = s.entryWindow := rfl
@[simp] theorem State.setIp_rf (n : Nat) : (s.setIp n).rf = s.rf := rfl
@[simp] theorem State.setIp_stack (n : Nat) : (s.setIp n).stack = setTopIp s.stack n := rfl
@[simp] theorem State.setIp_run (n : Nat) : (s.setIp n).run = s.run := rfl
@[simp] theorem State.setIp_result (n : Nat) : (s.setIp n).result = s.result := rfl
@[simp] theorem State.setIp_out (n : Nat) : (s.setIp n).out = s.out := rfl
@[simp] theorem State.setIp_nanDraws (n : Nat) : (s.setIp n).nanDraws = s.nanDraws := rfl

/-! ## `State.advance` -/

@[simp] theorem State.advance_code : s.advance.code = s.code := rfl
@[simp] theorem State.advance_pool : s.advance.pool = s.pool := rfl
@[simp] theorem State.advance_maxDepth : s.advance.maxDepth = s.maxDepth := rfl
@[simp] theorem State.advance_entryWindow : s.advance.entryWindow = s.entryWindow := rfl
@[simp] theorem State.advance_rf : s.advance.rf = s.rf := rfl
@[simp] theorem State.advance_stack : s.advance.stack = setTopIp s.stack (s.ip + 1) := rfl
@[simp] theorem State.advance_run : s.advance.run = s.run := rfl
@[simp] theorem State.advance_result : s.advance.result = s.result := rfl
@[simp] theorem State.advance_out : s.advance.out = s.out := rfl
@[simp] theorem State.advance_nanDraws : s.advance.nanDraws = s.nanDraws := rfl

/-! ## `State.push` -/

@[simp] theorem State.push_code (f : Frame) : (s.push f).code = s.code := rfl
@[simp] theorem State.push_pool (f : Frame) : (s.push f).pool = s.pool := rfl
@[simp] theorem State.push_maxDepth (f : Frame) : (s.push f).maxDepth = s.maxDepth := rfl
@[simp] theorem State.push_entryWindow (f : Frame) : (s.push f).entryWindow = s.entryWindow := rfl
@[simp] theorem State.push_rf (f : Frame) : (s.push f).rf = s.rf := rfl
@[simp] theorem State.push_stack (f : Frame) : (s.push f).stack = f :: s.stack := rfl
@[simp] theorem State.push_run (f : Frame) : (s.push f).run = s.run := rfl
@[simp] theorem State.push_result (f : Frame) : (s.push f).result = s.result := rfl
@[simp] theorem State.push_out (f : Frame) : (s.push f).out = s.out := rfl
@[simp] theorem State.push_nanDraws (f : Frame) : (s.push f).nanDraws = s.nanDraws := rfl

/-! ## `State.pop` -/

@[simp] theorem State.pop_code : s.pop.code = s.code := rfl
@[simp] theorem State.pop_pool : s.pop.pool = s.pool := rfl
@[simp] theorem State.pop_maxDepth : s.pop.maxDepth = s.maxDepth := rfl
@[simp] theorem State.pop_entryWindow : s.pop.entryWindow = s.entryWindow := rfl
@[simp] theorem State.pop_rf : s.pop.rf = s.rf := rfl
@[simp] theorem State.pop_stack : s.pop.stack = s.stack.tail := rfl
@[simp] theorem State.pop_run : s.pop.run = s.run := rfl
@[simp] theorem State.pop_result : s.pop.result = s.result := rfl
@[simp] theorem State.pop_out : s.pop.out = s.out := rfl
@[simp] theorem State.pop_nanDraws : s.pop.nanDraws = s.nanDraws := rfl

/-! ## `raise` -/

@[simp] theorem raise_code (k : FaultKind) : (raise k s).code = s.code := rfl
@[simp] theorem raise_pool (k : FaultKind) : (raise k s).pool = s.pool := rfl
@[simp] theorem raise_maxDepth (k : FaultKind) : (raise k s).maxDepth = s.maxDepth := rfl
@[simp] theorem raise_entryWindow (k : FaultKind) : (raise k s).entryWindow = s.entryWindow := rfl
@[simp] theorem raise_rf (k : FaultKind) : (raise k s).rf = s.rf := rfl
@[simp] theorem raise_stack (k : FaultKind) : (raise k s).stack = s.stack := rfl
@[simp] theorem raise_run (k : FaultKind) : (raise k s).run = .halted := rfl
@[simp] theorem raise_result (k : FaultKind) : (raise k s).result = .fault k s.ip s.depth := rfl
@[simp] theorem raise_out (k : FaultKind) : (raise k s).out = s.out := rfl
@[simp] theorem raise_nanDraws (k : FaultKind) : (raise k s).nanDraws = s.nanDraws := rfl

/-! ## The active frame's `ip` and the depth -/

@[simp] theorem setTopIp_nil (n : Nat) : setTopIp [] n = [] := rfl

@[simp] theorem setTopIp_cons (f : Frame) (fs : List Frame) (n : Nat) :
    setTopIp (f :: fs) n = { f with ip := n } :: fs := rfl

@[simp] theorem setTopIp_length (fs : List Frame) (n : Nat) : (setTopIp fs n).length = fs.length := by
  cases fs <;> rfl

/-- With an active frame, `ip` is that frame's. -/
theorem State.ip_of_stack {s : State} {f : Frame} {callers : List Frame} (h : s.stack = f :: callers) :
    s.ip = f.ip := by simp [State.ip, h]

/-- The depth is one more than the number of frames under the active one. -/
theorem State.depth_of_stack {s : State} {f : Frame} {callers : List Frame} (h : s.stack = f :: callers) :
    s.depth = callers.length + 1 := by simp [State.depth, h]

/-- Setting `ip` changes the active frame's `ip` alone. -/
theorem State.setIp_of_stack {s : State} {f : Frame} {callers : List Frame} (n : Nat)
    (h : s.stack = f :: callers) : s.setIp n = s.withStack ({ f with ip := n } :: callers) := by
  simp [State.setIp, h]

/-- The default advance in an active frame. -/
theorem State.advance_of_stack {s : State} {f : Frame} {callers : List Frame}
    (h : s.stack = f :: callers) : s.advance = s.withStack ({ f with ip := f.ip + 1 } :: callers) := by
  simp [State.advance, State.setIp_of_stack _ h, State.ip_of_stack h]

/-! ## One slot of the arena -/

@[simp] theorem State.slotAt_withStack (fs : List Frame) (k : Nat) :
    (s.withStack fs).slotAt k = s.slotAt k := rfl

@[simp] theorem State.slotAt_halt (r : Completion) (k : Nat) : (s.halt r).slotAt k = s.slotAt k := rfl

@[simp] theorem State.slotAt_emit (v : Slot) (k : Nat) : (s.emit v).slotAt k = s.slotAt k := rfl

@[simp] theorem State.slotAt_nextDraw (k : Nat) : s.nextDraw.slotAt k = s.slotAt k := rfl

@[simp] theorem State.slotAt_setIp (n k : Nat) : (s.setIp n).slotAt k = s.slotAt k := rfl

@[simp] theorem State.slotAt_advance (k : Nat) : s.advance.slotAt k = s.slotAt k := rfl

@[simp] theorem State.slotAt_push (f : Frame) (k : Nat) : (s.push f).slotAt k = s.slotAt k := rfl

@[simp] theorem State.slotAt_pop (k : Nat) : s.pop.slotAt k = s.slotAt k := rfl

/-- A slot written inside the arena reads back. -/
theorem State.slotAt_setSlot_same {s : State} {k : Nat} (v : Slot) (h : k < s.regfileSize) :
    (s.setSlot k v).slotAt k = v := by
  simp only [State.regfileSize] at h
  simp [State.slotAt, List.getD_eq_getElem?_getD, h]

/-- Writing one slot leaves every other slot alone. -/
theorem State.slotAt_setSlot_other {s : State} {j k : Nat} (v : Slot) (h : k ≠ j) :
    (s.setSlot j v).slotAt k = s.slotAt k := by
  simp [State.slotAt, List.getD_eq_getElem?_getD, Ne.symm h]

@[simp] theorem State.regfileSize_setSlot (k : Nat) (v : Slot) :
    (s.setSlot k v).regfileSize = s.regfileSize := by simp [State.regfileSize]

end Sys2Proof.Machine
end

