-- ==== Sys2Proof/Laws/Ops.lean ====
section
/-! SUPPORT. What each shared operation can do, said once: when a check passes, what a read answers, what
the copying loops leave, and the two ways an attempted rule ends. -/

namespace Sys2Proof.Machine

variable {s t : State} {f : Frame} {callers : List Frame} {i j : Nat} {k : FaultKind}

/-! ## Rules as sequences of checks -/

theorem except_bind_ok {α β : Type} {x : Except FaultKind α} {g : α → Except FaultKind β} {b : β} :
    (x >>= g) = .ok b ↔ ∃ a, x = .ok a ∧ g a = .ok b := by
  cases x <;> simp [bind, Except.bind]

theorem except_bind_error {α β : Type} {x : Except FaultKind α} {g : α → Except FaultKind β} :
    (x >>= g) = .error k ↔ x = .error k ∨ ∃ a, x = .ok a ∧ g a = .error k := by
  cases x <;> simp [bind, Except.bind]

@[simp] theorem except_ok_bind {α β : Type} (a : α) (g : α → Except FaultKind β) :
    ((Except.ok a : Except FaultKind α) >>= g) = g a := rfl

@[simp] theorem except_error_bind {α β : Type} (e : FaultKind) (g : α → Except FaultKind β) :
    ((Except.error e : Except FaultKind α) >>= g) = .error e := rfl

@[simp] theorem except_pure {α : Type} (a : α) : (pure a : Except FaultKind α) = .ok a := rfl

@[simp] theorem except_throw {α : Type} (e : FaultKind) : (throw e : Except FaultKind α) = .error e := rfl

theorem raiseIf_ok {p : Prop} [Decidable p] {u : Unit} : raiseIf p k = .ok u ↔ ¬p := by
  by_cases h : p <;> simp [raiseIf, h]

theorem raiseIf_error {p : Prop} [Decidable p] {k' : FaultKind} :
    raiseIf p k = .error k' ↔ p ∧ k = k' := by
  by_cases h : p <;> simp [raiseIf, h]

@[simp] theorem raiseIf_of_not {p : Prop} [Decidable p] (h : ¬p) : raiseIf p k = .ok () := by
  simp [raiseIf, h]

@[simp] theorem raiseIf_of {p : Prop} [Decidable p] (h : p) : raiseIf p k = .error k := by
  simp [raiseIf, h]

/-! ## Attempting a rule -/

/-- With an active frame, an attempted rule ends in its own next state or in the first fault it raised. -/
theorem attempt_of_stack {rule : Frame → List Frame → Except FaultKind State}
    (h : s.stack = f :: callers) :
    attempt s rule = match rule f callers with
      | .ok t => .next t
      | .error k => .next (raise k s) := by
  cases hr : rule f callers <;> simp [attempt, h, hr]

/-- An attempted rule that answers a next state had an active frame; the state is the rule's own, or the
state with the rule's fault taken. -/
theorem attempt_next {rule : Frame → List Frame → Except FaultKind State}
    (h : attempt s rule = .next t) :
    ∃ f callers, s.stack = f :: callers ∧
      (rule f callers = .ok t ∨ ∃ k, rule f callers = .error k ∧ t = raise k s) := by
  cases hs : s.stack with
  | nil => simp [attempt, hs] at h
  | cons f callers =>
    refine ⟨f, callers, rfl, ?_⟩
    rw [attempt_of_stack hs] at h
    cases hr : rule f callers with
    | ok u => rw [hr] at h; cases h; exact .inl rfl
    | error k => rw [hr] at h; cases h; exact .inr ⟨k, rfl, rfl⟩

/-! ## Registers -/

theorem chk_ok {u : Unit} : chk f i = .ok u ↔ i < f.size := by simp [chk, raiseIf_ok]

theorem chk_error : chk f i = .error k ↔ f.size ≤ i ∧ FaultKind.indexFault = k := by
  simp [chk, raiseIf_error]

theorem chk_of_lt (h : i < f.size) : chk f i = .ok () := chk_ok.2 h

theorem chk_of_ge (h : f.size ≤ i) : chk f i = .error .indexFault := chk_error.2 ⟨h, rfl⟩

theorem readReg_ok {v : Slot} : readReg s f i = .ok v ↔ i < f.size ∧ s.slotAt (f.base + i) = v := by
  by_cases h : i < f.size
  · simp [readReg, chk_of_lt h, h]
  · simp [readReg, chk_of_ge (Nat.not_lt.1 h), h]

theorem readReg_error : readReg s f i = .error k ↔ f.size ≤ i ∧ FaultKind.indexFault = k := by
  by_cases h : i < f.size
  · simp [readReg, chk_of_lt h, Nat.not_le.2 h]
  · simp [readReg, chk_of_ge (Nat.not_lt.1 h), Nat.not_lt.1 h]

/-- A typed integer read answers the payload of an `Int` slot inside the window, and nothing else. -/
theorem readInt_ok {v : Payload} :
    readInt s f i = .ok v ↔ i < f.size ∧ s.slotAt (f.base + i) = .int v := by
  by_cases h : i < f.size
  · rw [readInt, readReg_ok.2 ⟨h, rfl⟩]
    cases s.slotAt (f.base + i) <;> simp [h]
  · rw [readInt, readReg_error.2 ⟨Nat.not_lt.1 h, rfl⟩]
    simp [h]

theorem readInt_error : readInt s f i = .error k ↔
    (f.size ≤ i ∧ FaultKind.indexFault = k) ∨
      (i < f.size ∧ (s.slotAt (f.base + i)).tag ≠ .int ∧ FaultKind.typeFault = k) := by
  by_cases h : i < f.size
  · rw [readInt, readReg_ok.2 ⟨h, rfl⟩]
    cases s.slotAt (f.base + i) <;> simp [h, Slot.tag, Nat.not_le.2 h]
  · rw [readInt, readReg_error.2 ⟨Nat.not_lt.1 h, rfl⟩]
    simp [h, Nat.not_lt.1 h]

/-- A typed float read answers the payload of a `Float` slot inside the window, and nothing else. -/
theorem readFloat_ok {v : Payload} :
    readFloat s f i = .ok v ↔ i < f.size ∧ s.slotAt (f.base + i) = .float v := by
  by_cases h : i < f.size
  · rw [readFloat, readReg_ok.2 ⟨h, rfl⟩]
    cases s.slotAt (f.base + i) <;> simp [h]
  · rw [readFloat, readReg_error.2 ⟨Nat.not_lt.1 h, rfl⟩]
    simp [h]

theorem readFloat_error : readFloat s f i = .error k ↔
    (f.size ≤ i ∧ FaultKind.indexFault = k) ∨
      (i < f.size ∧ (s.slotAt (f.base + i)).tag ≠ .float ∧ FaultKind.typeFault = k) := by
  by_cases h : i < f.size
  · rw [readFloat, readReg_ok.2 ⟨h, rfl⟩]
    cases s.slotAt (f.base + i) <;> simp [h, Slot.tag, Nat.not_le.2 h]
  · rw [readFloat, readReg_error.2 ⟨Nat.not_lt.1 h, rfl⟩]
    simp [h, Nat.not_lt.1 h]

/-- What `Print` may read: an `Int` or `Float` slot inside the window, whole. -/
theorem readPrintable_ok {v : Slot} : readPrintable s f i = .ok v ↔
    i < f.size ∧ s.slotAt (f.base + i) = v ∧ (v.tag = .int ∨ v.tag = .float) := by
  by_cases h : i < f.size
  · rw [readPrintable, readReg_ok.2 ⟨h, rfl⟩]
    cases s.slotAt (f.base + i) <;> cases v <;> simp [h, Slot.tag]
  · rw [readPrintable, readReg_error.2 ⟨Nat.not_lt.1 h, rfl⟩]
    simp [h]

theorem readPrintable_error : readPrintable s f i = .error k ↔
    (f.size ≤ i ∧ FaultKind.indexFault = k) ∨
      (i < f.size ∧ (s.slotAt (f.base + i)).tag ≠ .int ∧ (s.slotAt (f.base + i)).tag ≠ .float ∧
        FaultKind.typeFault = k) := by
  by_cases h : i < f.size
  · rw [readPrintable, readReg_ok.2 ⟨h, rfl⟩]
    cases s.slotAt (f.base + i) <;> simp [h, Slot.tag, Nat.not_le.2 h]
  · rw [readPrintable, readReg_error.2 ⟨Nat.not_lt.1 h, rfl⟩]
    simp [h, Nat.not_lt.1 h]

theorem truth_ok {g : Bool} : truth s f i = .ok g ↔
    ∃ v, i < f.size ∧ s.slotAt (f.base + i) = .int v ∧ truthOf v = g := by
  simp [truth, except_bind_ok, readInt_ok, and_assoc]

theorem truth_error : truth s f i = .error k ↔
    (f.size ≤ i ∧ FaultKind.indexFault = k) ∨
      (i < f.size ∧ (s.slotAt (f.base + i)).tag ≠ .int ∧ FaultKind.typeFault = k) := by
  simp [truth, except_bind_error, readInt_error]

/-- A register write inside the window writes its one slot. -/
theorem writeReg_ok {v : Slot} : writeReg s f i v = .ok t ↔ i < f.size ∧ s.setSlot (f.base + i) v = t := by
  by_cases h : i < f.size
  · simp [writeReg, chk_of_lt h, h]
  · simp [writeReg, chk_of_ge (Nat.not_lt.1 h), h]

theorem writeReg_error {v : Slot} :
    writeReg s f i v = .error k ↔ f.size ≤ i ∧ FaultKind.indexFault = k := by
  by_cases h : i < f.size
  · simp [writeReg, chk_of_lt h, Nat.not_le.2 h]
  · simp [writeReg, chk_of_ge (Nat.not_lt.1 h), Nat.not_lt.1 h]

/-! ## Constants -/

theorem readConst_ok {e : Const} : readConst s j = .ok e ↔ s.pool[j]? = some e := by
  unfold readConst
  cases s.pool[j]? <;> simp

theorem readConst_error : readConst s j = .error k ↔ s.poolLen ≤ j ∧ FaultKind.indexFault = k := by
  unfold readConst State.poolLen
  cases h : s.pool[j]? with
  | none => simp [List.getElem?_eq_none_iff.1 h]
  | some e => simp [Nat.not_le.2 (List.getElem?_eq_some_iff.1 h).1]

theorem constSlot_ok {e : Const} {v : Slot} : constSlot e = .ok v ↔
    (e.kind = .int ∧ v = .int e.value) ∨ (e.kind = .float ∧ v = .float e.value) := by
  unfold constSlot
  cases e.kind <;> simp [eq_comm]

theorem constSlot_error {e : Const} : constSlot e = .error k ↔ e.kind = .jump ∧ FaultKind.typeFault = k := by
  unfold constSlot
  cases e.kind <;> simp

theorem jumpValue_ok {e : Const} {v : Int} : jumpValue e = .ok v ↔ e.kind = .jump ∧ e.value.toInt = v := by
  unfold jumpValue
  cases e.kind <;> simp

theorem jumpValue_error {e : Const} : jumpValue e = .error k ↔ e.kind ≠ .jump ∧ FaultKind.typeFault = k := by
  unfold jumpValue
  cases e.kind <;> simp

/-! ## Landing -/

/-- A jump lands inside the instruction store, and only `ip` changes. -/
theorem land_ok {z : Int} : land s z = .ok t ↔ 0 ≤ z ∧ z < s.codeLen ∧ s.setIp z.toNat = t := by
  simp [land, except_bind_ok, raiseIf_ok, and_assoc]

theorem land_error {z : Int} : land s z = .error k ↔
    (z < 0 ∨ (s.codeLen : Int) ≤ z) ∧ FaultKind.indexFault = k := by
  simp [land, except_bind_error, raiseIf_error]

theorem landIf_ok {taken : Bool} {z : Int} : landIf s taken z = .ok t ↔
    (taken = true ∧ 0 ≤ z ∧ z < s.codeLen ∧ s.setIp z.toNat = t) ∨ (taken = false ∧ s.advance = t) := by
  cases taken <;> simp [landIf, land_ok]

theorem landIf_error {taken : Bool} {z : Int} : landIf s taken z = .error k ↔
    taken = true ∧ (z < 0 ∨ (s.codeLen : Int) ≤ z) ∧ FaultKind.indexFault = k := by
  cases taken <;> simp [landIf, land_error]

/-! ## Runs of slots -/

@[simp] theorem clearSlots_length (rf : List Slot) (dst n : Nat) : (clearSlots rf dst n).length = rf.length := by
  induction n with
  | zero => rfl
  | succ n ih => simp [clearSlots, ih]

@[simp] theorem copySlots_length (rf : List Slot) (src dst n : Nat) :
    (copySlots rf src dst n).length = rf.length := by
  induction n with
  | zero => rfl
  | succ n ih => simp [copySlots, ih]

theorem getD_set_slot (rf : List Slot) (a b : Nat) (v : Slot) :
    (rf.set a v).getD b .invalid = if a = b ∧ a < rf.length then v else rf.getD b .invalid := by
  simp only [List.getD_eq_getElem?_getD, List.getElem?_set]
  by_cases h : a = b
  · subst h
    by_cases hl : a < rf.length <;> simp [hl]
  · simp [h]

/-- Clearing makes the run `Invalid` and leaves every other slot alone. -/
theorem clearSlots_getD (rf : List Slot) (dst n j : Nat) :
    (clearSlots rf dst n).getD j .invalid =
      if dst ≤ j ∧ j < dst + n then .invalid else rf.getD j .invalid := by
  induction n with
  | zero => simp [clearSlots]
  | succ n ih =>
    rw [clearSlots, getD_set_slot, ih, clearSlots_length]
    split_ifs <;> first | rfl | (exfalso; omega) | skip
    all_goals
      have : rf.length ≤ j := by omega
      simp [List.getD_eq_getElem?_getD, List.getElem?_eq_none_iff.2 this]

/-- Copying a run to a disjoint run inside the arena copies each slot whole and leaves every slot
outside the destination alone. -/
theorem copySlots_getD (rf : List Slot) (src dst n j : Nat) (hfit : dst + n ≤ rf.length)
    (hdisj : src + n ≤ dst ∨ dst + n ≤ src) :
    (copySlots rf src dst n).getD j .invalid =
      if dst ≤ j ∧ j < dst + n then rf.getD (src + (j - dst)) .invalid else rf.getD j .invalid := by
  induction n generalizing j with
  | zero => simp [copySlots]
  | succ n ih =>
    have ih' := fun j => ih j (by omega) (by omega)
    rw [copySlots, getD_set_slot, ih', ih', copySlots_length]
    by_cases h : dst + n = j
    · subst h
      have h1 : dst + n < rf.length := by omega
      have h2 : ¬(dst ≤ src + n ∧ src + n < dst + n) := by omega
      have h3 : dst ≤ dst + n ∧ dst + n < dst + (n + 1) := by omega
      rw [if_pos ⟨rfl, h1⟩, if_neg h2, if_pos h3, Nat.add_sub_cancel_left]
    · have h1 : (dst ≤ j ∧ j < dst + n) ↔ (dst ≤ j ∧ j < dst + (n + 1)) := by omega
      simp only [h, false_and, if_false, h1]

@[simp] theorem State.slotsFrom_length (src n : Nat) : (s.slotsFrom src n).length = n := by
  simp [State.slotsFrom]

end Sys2Proof.Machine
end

