-- ==== Sys2Proof/Laws/PerInstr.lean ====
section
/-! SUPPORT. The families of lemmas made per instruction: the opcode byte of an encoded word. -/

namespace Sys2Proof.Laws.OpcodeByte

open Sys2Proof

/-- A well-formed instruction's word carries its opcode value in the opcode byte (30_encoding.md R91, R101). -/
def Statement (i : Instr) : Prop :=
  i.wellFormed = true → opcodeOf (packWord i.opcode i.fields) = i.opcode

theorem ofShapeA {op arg : Nat} (ho : op < 2 ^ 8) (ha : fitsUnsigned 56 arg = true) :
    opcodeOf (packWord op (.shapeA arg)) = op := (pack_shapeA ho (fitsUnsigned_iff.1 ha)).1

theorem ofShapeB {op a b : Nat} (ho : op < 2 ^ 8) (h : fitsB a b = true) :
    opcodeOf (packWord op (.shapeB a b)) = op := (pack_shapeB ho (fitsB_iff.1 h).1 (fitsB_iff.1 h).2).1

theorem ofShapeC {op a b c : Nat} (ho : op < 2 ^ 8) (h : fitsC a b c = true) :
    opcodeOf (packWord op (.shapeC a b c)) = op :=
  (pack_shapeC ho (fitsC_iff.1 h).1 (fitsC_iff.1 h).2.1 (fitsC_iff.1 h).2.2).1

theorem ofTwoOfC {op a b : Nat} (ho : op < 2 ^ 8) (h : (fitsUnsigned 16 a && fitsUnsigned 16 b) = true) :
    opcodeOf (packWord op (.shapeC a b 0)) = op := by
  rw [Bool.and_eq_true, fitsUnsigned_iff, fitsUnsigned_iff] at h
  exact (pack_shapeC ho h.1 h.2 (by decide)).1

theorem ofOffset32 {op a : Nat} {z : Int} (ho : op < 2 ^ 8)
    (h : (fitsUnsigned 24 a && fitsSigned 32 z) = true) :
    opcodeOf (packWord op (.shapeB a (truncField 32 z))) = op := by
  rw [Bool.and_eq_true, fitsUnsigned_iff] at h
  exact (pack_shapeB ho h.1 (truncField_lt 32 z)).1

theorem nop : Statement .nop := fun _ => ofShapeA (by decide) (by decide)
theorem print (r : Nat) : Statement (.print r) := fun h => ofShapeA (Instr.opcode_lt _) h
theorem load (w k : Nat) : Statement (.load w k) := fun h => ofShapeB (Instr.opcode_lt _) h
theorem add (w p q : Nat) : Statement (.add w p q) := fun h => ofShapeC (Instr.opcode_lt _) h
theorem sub (w p q : Nat) : Statement (.sub w p q) := fun h => ofShapeC (Instr.opcode_lt _) h
theorem mult (w p q : Nat) : Statement (.mult w p q) := fun h => ofShapeC (Instr.opcode_lt _) h
theorem div (w p q : Nat) : Statement (.div w p q) := fun h => ofShapeC (Instr.opcode_lt _) h
theorem mod (w p q : Nat) : Statement (.mod w p q) := fun h => ofShapeC (Instr.opcode_lt _) h
theorem neg (w p : Nat) : Statement (.neg w p) := fun h => ofTwoOfC (Instr.opcode_lt _) h
theorem fAdd (w p q : Nat) : Statement (.fAdd w p q) := fun h => ofShapeC (Instr.opcode_lt _) h
theorem fDiv (w p q : Nat) : Statement (.fDiv w p q) := fun h => ofShapeC (Instr.opcode_lt _) h
theorem lt (w p q : Nat) : Statement (.lt w p q) := fun h => ofShapeC (Instr.opcode_lt _) h
theorem fLt (w p q : Nat) : Statement (.fLt w p q) := fun h => ofShapeC (Instr.opcode_lt _) h
theorem jmp (v : Nat) : Statement (.jmp v) := fun h => ofShapeA (Instr.opcode_lt _) h
theorem jmpT (r v : Nat) : Statement (.jmpT r v) := fun h => ofShapeB (Instr.opcode_lt _) h
theorem jmpF (r v : Nat) : Statement (.jmpF r v) := fun h => ofShapeB (Instr.opcode_lt _) h
theorem jmpC (k : Nat) : Statement (.jmpC k) := fun h => ofShapeA (Instr.opcode_lt _) h
theorem jmpTC (r k : Nat) : Statement (.jmpTC r k) := fun h => ofShapeB (Instr.opcode_lt _) h
theorem jmpFC (r k : Nat) : Statement (.jmpFC r k) := fun h => ofShapeB (Instr.opcode_lt _) h
theorem rJmp (z : Int) : Statement (.rJmp z) := fun _ =>
  (pack_shapeA (op := 0x48) (by decide) (truncField_lt 56 z)).1
theorem rJmpT (r : Nat) (z : Int) : Statement (.rJmpT r z) := fun h => ofOffset32 (Instr.opcode_lt _) h
theorem rJmpF (r : Nat) (z : Int) : Statement (.rJmpF r z) := fun h => ofOffset32 (Instr.opcode_lt _) h
theorem rJmpC (k : Nat) : Statement (.rJmpC k) := fun h => ofShapeA (Instr.opcode_lt _) h
theorem rJmpTC (r k : Nat) : Statement (.rJmpTC r k) := fun h => ofShapeB (Instr.opcode_lt _) h
theorem rJmpFC (r k : Nat) : Statement (.rJmpFC r k) := fun h => ofShapeB (Instr.opcode_lt _) h
theorem call (n b k : Nat) : Statement (.call n b k) := fun h => ofShapeC (Instr.opcode_lt _) h
theorem ret (n b : Nat) : Statement (.ret n b) := fun h => ofTwoOfC (Instr.opcode_lt _) h

end Sys2Proof.Laws.OpcodeByte
end

