-- ==== Sys2Proof/Laws/Rules.lean ====
section
/-! SUPPORT. The rules shared by several instructions: what each can answer, and its answer where every
check passes. -/

namespace Sys2Proof.Machine

variable {s t : State} {f : Frame} {callers : List Frame}

/-! ## Two integer sources -/

/-- An integer instruction of two sources wrote its result and advanced, or took a fault. -/
theorem intBinary_next {w p q : Nat} {op : Payload → Payload → Except FaultKind Slot}
    (h : intBinary w p q op s = .next t) :
    ∃ f callers, s.stack = f :: callers ∧
      ((∃ u v r, w < f.size ∧ p < f.size ∧ q < f.size ∧ s.slotAt (f.base + p) = .int u ∧
          s.slotAt (f.base + q) = .int v ∧ op u v = .ok r ∧ t = (s.setSlot (f.base + w) r).advance) ∨
        ∃ k, t = raise k s) := by
  obtain ⟨f, callers, hs, h | ⟨k, -, rfl⟩⟩ := attempt_next h
  · refine ⟨f, callers, hs, .inl ?_⟩
    simp only [except_bind_ok, chk_ok, readInt_ok, writeReg_ok, except_pure, Except.ok.injEq] at h
    obtain ⟨-, hw, -, hp, -, hq, u, ⟨-, hu⟩, v, ⟨-, hv⟩, r, hr, -, ⟨-, rfl⟩, rfl⟩ := h
    exact ⟨u, v, r, hw, hp, hq, hu, hv, hr, rfl⟩
  · exact ⟨f, callers, hs, .inr ⟨k, rfl⟩⟩

/-- Where every check passes, an integer instruction of two sources writes its result and advances. -/
theorem intBinary_of_ok {w p q : Nat} {op : Payload → Payload → Except FaultKind Slot} {u v : Payload}
    {r : Slot} (hs : s.stack = f :: callers) (hw : w < f.size) (hp : p < f.size) (hq : q < f.size)
    (hu : s.slotAt (f.base + p) = .int u) (hv : s.slotAt (f.base + q) = .int v) (hr : op u v = .ok r) :
    intBinary w p q op s = .next (s.setSlot (f.base + w) r).advance := by
  rw [intBinary, attempt_of_stack hs]
  simp [chk_of_lt hw, chk_of_lt hp, chk_of_lt hq, readInt_ok.2 ⟨hp, hu⟩, readInt_ok.2 ⟨hq, hv⟩, hr,
    writeReg_ok.2 ⟨hw, rfl⟩]

/-- Where all sources are readable, the fault an integer instruction takes is its operation's. -/
theorem intBinary_of_error {w p q : Nat} {op : Payload → Payload → Except FaultKind Slot}
    {u v : Payload} {k : FaultKind} (hs : s.stack = f :: callers) (hw : w < f.size) (hp : p < f.size)
    (hq : q < f.size) (hu : s.slotAt (f.base + p) = .int u) (hv : s.slotAt (f.base + q) = .int v)
    (hr : op u v = .error k) : intBinary w p q op s = .next (raise k s) := by
  rw [intBinary, attempt_of_stack hs]
  simp [chk_of_lt hw, chk_of_lt hp, chk_of_lt hq, readInt_ok.2 ⟨hp, hu⟩, readInt_ok.2 ⟨hq, hv⟩, hr]

/-! ## Two float sources -/

/-- A float instruction of two sources wrote its result and advanced, or took a fault. -/
theorem floatBinary_next {w p q : Nat} {op : Payload → Payload → Except FaultKind Slot}
    {after : State → State} (h : floatBinary w p q op after s = .next t) :
    ∃ f callers, s.stack = f :: callers ∧
      ((∃ u v r, w < f.size ∧ p < f.size ∧ q < f.size ∧ s.slotAt (f.base + p) = .float u ∧
          s.slotAt (f.base + q) = .float v ∧ op u v = .ok r ∧
          t = (after (s.setSlot (f.base + w) r)).advance) ∨
        ∃ k, t = raise k s) := by
  obtain ⟨f, callers, hs, h | ⟨k, -, rfl⟩⟩ := attempt_next h
  · refine ⟨f, callers, hs, .inl ?_⟩
    simp only [except_bind_ok, chk_ok, readFloat_ok, writeReg_ok, except_pure, Except.ok.injEq] at h
    obtain ⟨-, hw, -, hp, -, hq, u, ⟨-, hu⟩, v, ⟨-, hv⟩, r, hr, -, ⟨-, rfl⟩, rfl⟩ := h
    exact ⟨u, v, r, hw, hp, hq, hu, hv, hr, rfl⟩
  · exact ⟨f, callers, hs, .inr ⟨k, rfl⟩⟩

/-- Where every check passes, a float instruction of two sources writes its result and advances. -/
theorem floatBinary_of_ok {w p q : Nat} {op : Payload → Payload → Except FaultKind Slot}
    {after : State → State} {u v : Payload} {r : Slot} (hs : s.stack = f :: callers) (hw : w < f.size)
    (hp : p < f.size) (hq : q < f.size) (hu : s.slotAt (f.base + p) = .float u)
    (hv : s.slotAt (f.base + q) = .float v) (hr : op u v = .ok r) :
    floatBinary w p q op after s = .next (after (s.setSlot (f.base + w) r)).advance := by
  rw [floatBinary, attempt_of_stack hs]
  simp [chk_of_lt hw, chk_of_lt hp, chk_of_lt hq, readFloat_ok.2 ⟨hp, hu⟩, readFloat_ok.2 ⟨hq, hv⟩, hr,
    writeReg_ok.2 ⟨hw, rfl⟩]

/-- Where all sources are readable, the fault a float instruction takes is its operation's. -/
theorem floatBinary_of_error {w p q : Nat} {op : Payload → Payload → Except FaultKind Slot}
    {after : State → State} {u v : Payload} {k : FaultKind} (hs : s.stack = f :: callers)
    (hw : w < f.size) (hp : p < f.size) (hq : q < f.size) (hu : s.slotAt (f.base + p) = .float u)
    (hv : s.slotAt (f.base + q) = .float v) (hr : op u v = .error k) :
    floatBinary w p q op after s = .next (raise k s) := by
  rw [floatBinary, attempt_of_stack hs]
  simp [chk_of_lt hw, chk_of_lt hp, chk_of_lt hq, readFloat_ok.2 ⟨hp, hu⟩, readFloat_ok.2 ⟨hq, hv⟩, hr]

/-! ## Jumps -/

/-- What any jump can answer: `ip` inside the instruction store, the fall-through, or a fault. -/
def JumpAnswers (s t : State) : Prop :=
  (∃ n, n < s.codeLen ∧ t = s.setIp n) ∨ t = s.advance ∨ ∃ k, t = raise k s

theorem jumpAnswers_of_land {z : Int} (h : land s z = .ok t) : JumpAnswers s t := by
  obtain ⟨h0, h1, rfl⟩ := land_ok.1 h
  exact .inl ⟨z.toNat, by omega, rfl⟩

theorem jumpAnswers_of_landIf {taken : Bool} {z : Int} (h : landIf s taken z = .ok t) :
    JumpAnswers s t := by
  obtain ⟨-, h0, h1, rfl⟩ | ⟨-, rfl⟩ := landIf_ok.1 h
  · exact .inl ⟨z.toNat, by omega, rfl⟩
  · exact .inr (.inl rfl)

theorem jumpTo_next {target : Frame → Int} (h : jumpTo target s = .next t) : JumpAnswers s t := by
  obtain ⟨f, callers, -, h | ⟨k, -, rfl⟩⟩ := attempt_next h
  · exact jumpAnswers_of_land h
  · exact .inr (.inr ⟨k, rfl⟩)

theorem jumpToIf_next {reg : Nat} {when : Bool} {target : Frame → Int}
    (h : jumpToIf reg when target s = .next t) : JumpAnswers s t := by
  obtain ⟨f, callers, -, h | ⟨k, -, rfl⟩⟩ := attempt_next h
  · obtain ⟨g, -, h⟩ := except_bind_ok.1 h
    exact jumpAnswers_of_landIf h
  · exact .inr (.inr ⟨k, rfl⟩)

theorem jumpConst_next {index : Nat} {target : Frame → Int → Int}
    (h : jumpConst index target s = .next t) : JumpAnswers s t := by
  obtain ⟨f, callers, -, h | ⟨k, -, rfl⟩⟩ := attempt_next h
  · simp only [except_bind_ok] at h
    obtain ⟨e, -, v, -, h⟩ := h
    exact jumpAnswers_of_land h
  · exact .inr (.inr ⟨k, rfl⟩)

theorem jumpConstIf_next {reg index : Nat} {when : Bool} {target : Frame → Int → Int}
    (h : jumpConstIf reg index when target s = .next t) : JumpAnswers s t := by
  obtain ⟨f, callers, -, h | ⟨k, -, rfl⟩⟩ := attempt_next h
  · simp only [except_bind_ok] at h
    obtain ⟨-, -, e, -, g, -, v, -, h⟩ := h
    exact jumpAnswers_of_landIf h
  · exact .inr (.inr ⟨k, rfl⟩)

/-! ## Call and Ret -/

/-- `Call` pushed a frame above the caller's window, or took a fault. -/
theorem execCall_next {n start func : Nat} (h : execCall n start func s = .next t) :
    ∃ f callers, s.stack = f :: callers ∧
      ((∃ e, s.pool[func]? = some e ∧ e.kind = .jump ∧ ¬(0 < n ∧ f.size < start + n) ∧
          0 ≤ e.value.toInt ∧ e.value.toInt < s.codeLen ∧ n ≤ e.window ∧ s.depth < s.maxDepth ∧
          f.base + f.size + e.window ≤ s.regfileSize ∧
          t = ((s.withRf (copySlots (clearSlots s.rf (f.base + f.size) e.window) (f.base + start)
            (f.base + f.size) n)).advance.push (calleeFrame f start e e.value.toInt))) ∨
        ∃ k, t = raise k s) := by
  obtain ⟨f, callers, hs, h | ⟨k, -, rfl⟩⟩ := attempt_next h
  · refine ⟨f, callers, hs, .inl ?_⟩
    simp only [except_bind_ok, raiseIf_ok, readConst_ok, jumpValue_ok, except_pure, Except.ok.injEq] at h
    obtain ⟨-, h1, e, he, -, ⟨hk, rfl⟩, -, h2, -, h3, -, h4, -, h5, rfl⟩ := h
    exact ⟨e, he, hk, h1, by omega, by omega, by omega, by omega, by omega, rfl⟩
  · exact ⟨f, callers, hs, .inr ⟨k, rfl⟩⟩

/-- `Ret` ended the program in the outermost frame, returned to the caller, or took a fault. -/
theorem execRet_next {n start : Nat} (h : execRet n start s = .next t) :
    ∃ f callers, s.stack = f :: callers ∧
      ((callers = [] ∧ ¬(0 < n ∧ f.size < start + n) ∧
          t = s.halt (.normal (s.slotsFrom (f.base + start) n))) ∨
        (∃ c rest, callers = c :: rest ∧ ¬(0 < n ∧ f.size < start + n) ∧ n = f.nret ∧
          ¬(0 < n ∧ c.size < f.retdst + n) ∧
          t = (s.withRf (copySlots s.rf (f.base + start) (c.base + f.retdst) n)).pop) ∨
        ∃ k, t = raise k s) := by
  obtain ⟨f, callers, hs, h | ⟨k, -, rfl⟩⟩ := attempt_next h
  · refine ⟨f, callers, hs, ?_⟩
    cases callers with
    | nil =>
      simp only [endProgram, except_bind_ok, raiseIf_ok, except_pure, Except.ok.injEq] at h
      obtain ⟨-, h1, rfl⟩ := h
      exact .inl ⟨rfl, h1, rfl⟩
    | cons c rest =>
      simp only [returnTo, except_bind_ok, raiseIf_ok, except_pure, Except.ok.injEq] at h
      obtain ⟨-, h1, -, h2, -, h3, rfl⟩ := h
      exact .inr (.inl ⟨c, rest, rfl, h1, not_not.1 h2, h3, rfl⟩)
  · exact ⟨f, callers, hs, .inr (.inr ⟨k, rfl⟩)⟩

/-! ## Nop, Print, Load, Neg -/

theorem execNop_next (h : execNop s = .next t) : t = s.advance := by
  obtain ⟨f, callers, -, h | ⟨k, h, -⟩⟩ := attempt_next h
  · exact (Except.ok.inj h).symm
  · exact absurd h (by simp)

/-- `Print` emitted an `Int` or `Float` slot of the window and advanced, or took a fault. -/
theorem execPrint_next {reg : Nat} (h : execPrint reg s = .next t) :
    ∃ f callers, s.stack = f :: callers ∧
      ((∃ v, reg < f.size ∧ s.slotAt (f.base + reg) = v ∧ (v.tag = .int ∨ v.tag = .float) ∧
          t = (s.emit v).advance) ∨ ∃ k, t = raise k s) := by
  obtain ⟨f, callers, hs, h | ⟨k, -, rfl⟩⟩ := attempt_next h
  · simp only [except_bind_ok, readPrintable_ok, except_pure, Except.ok.injEq] at h
    obtain ⟨v, ⟨h1, h2, h3⟩, rfl⟩ := h
    exact ⟨f, callers, hs, .inl ⟨v, h1, h2, h3, rfl⟩⟩
  · exact ⟨f, callers, hs, .inr ⟨k, rfl⟩⟩

/-- `Load` wrote an `Int` or `Float` constant and advanced, or took a fault. -/
theorem execLoad_next {w index : Nat} (h : execLoad w index s = .next t) :
    ∃ f callers, s.stack = f :: callers ∧
      ((∃ e v, w < f.size ∧ s.pool[index]? = some e ∧ constSlot e = .ok v ∧
          t = (s.setSlot (f.base + w) v).advance) ∨ ∃ k, t = raise k s) := by
  obtain ⟨f, callers, hs, h | ⟨k, -, rfl⟩⟩ := attempt_next h
  · simp only [except_bind_ok, chk_ok, readConst_ok, writeReg_ok, except_pure, Except.ok.injEq] at h
    obtain ⟨-, hw, e, he, v, hv, -, ⟨-, rfl⟩, rfl⟩ := h
    exact ⟨f, callers, hs, .inl ⟨e, v, hw, he, hv, rfl⟩⟩
  · exact ⟨f, callers, hs, .inr ⟨k, rfl⟩⟩

/-- `Neg` wrote the wrapped negation and advanced, or took a fault. -/
theorem execNeg_next {w p : Nat} (h : execNeg w p s = .next t) :
    ∃ f callers, s.stack = f :: callers ∧
      ((∃ u, w < f.size ∧ p < f.size ∧ s.slotAt (f.base + p) = .int u ∧
          t = (s.setSlot (f.base + w) (.int (trunc64 (0 - u.toInt)))).advance) ∨
        ∃ k, t = raise k s) := by
  obtain ⟨f, callers, hs, h | ⟨k, -, rfl⟩⟩ := attempt_next h
  · simp only [except_bind_ok, chk_ok, readInt_ok, writeReg_ok, except_pure, Except.ok.injEq] at h
    obtain ⟨-, hw, -, hp, u, ⟨-, hu⟩, -, ⟨-, rfl⟩, rfl⟩ := h
    exact ⟨f, callers, hs, .inl ⟨u, hw, hp, hu, rfl⟩⟩
  · exact ⟨f, callers, hs, .inr ⟨k, rfl⟩⟩

end Sys2Proof.Machine
end

