-- ==== Sys2Proof/Laws/Step.lean ====
section
/-! SUPPORT. What one instruction and one step can do to the state, said once for all instructions; every
invariant is derived from here. -/

namespace Sys2Proof.Machine

/-- Everything an instruction can do when it answers a next state. -/
inductive Effect (s : State) : State → Prop
  /-- Wrote one register of the active window, took `d` NaN draws (none or one), advanced. -/
  | wrote (f : Frame) (callers : List Frame) (w : Nat) (r : Slot) (hs : s.stack = f :: callers)
      (hw : w < f.size) (hr : r.tag = .int ∨ r.tag = .float) : Effect s (s.setSlot (f.base + w) r).advance
  | wroteDrawing (f : Frame) (callers : List Frame) (w : Nat) (r : Slot) (hs : s.stack = f :: callers)
      (hw : w < f.size) (hr : r.tag = .float) : Effect s (s.setSlot (f.base + w) r).nextDraw.advance
  /-- Emitted a numeric slot of the active window and advanced. -/
  | emitted (f : Frame) (callers : List Frame) (i : Nat) (v : Slot) (hs : s.stack = f :: callers)
      (hi : i < f.size) (hv : s.slotAt (f.base + i) = v) (ht : v.tag = .int ∨ v.tag = .float) :
      Effect s (s.emit v).advance
  | advanced (f : Frame) (callers : List Frame) (hs : s.stack = f :: callers) : Effect s s.advance
  /-- Jumped inside the instruction store. -/
  | jumped (f : Frame) (callers : List Frame) (n : Nat) (hs : s.stack = f :: callers)
      (hn : n < s.codeLen) : Effect s (s.setIp n)
  /-- Pushed a frame whose window lies right above the caller's. -/
  | called (f : Frame) (callers : List Frame) (n start func : Nat) (e : Const) (hs : s.stack = f :: callers)
      (he : s.pool[func]? = some e) (hk : e.kind = .jump) (hargs : ¬(0 < n ∧ f.size < start + n))
      (h0 : 0 ≤ e.value.toInt) (h1 : e.value.toInt < s.codeLen) (hn : n ≤ e.window)
      (hd : s.depth < s.maxDepth) (hroom : f.base + f.size + e.window ≤ s.regfileSize) :
      Effect s ((s.withRf (copySlots (clearSlots s.rf (f.base + f.size) e.window) (f.base + start)
        (f.base + f.size) n)).advance.push (calleeFrame f start e e.value.toInt))
  /-- Returned to the caller. -/
  | returned (f c : Frame) (rest : List Frame) (n start : Nat) (hs : s.stack = f :: c :: rest)
      (hsrc : ¬(0 < n ∧ f.size < start + n)) (hn : n = f.nret)
      (hdst : ¬(0 < n ∧ c.size < f.retdst + n)) :
      Effect s (s.withRf (copySlots s.rf (f.base + start) (c.base + f.retdst) n)).pop
  /-- Ended the program in the outermost frame. -/
  | ended (f : Frame) (n start : Nat) (hs : s.stack = [f]) (hsrc : ¬(0 < n ∧ f.size < start + n)) :
      Effect s (s.halt (.normal (s.slotsFrom (f.base + start) n)))
  /-- Took a fault. -/
  | faulted (f : Frame) (callers : List Frame) (k : FaultKind) (hs : s.stack = f :: callers) :
      Effect s (raise k s)

variable {s t : State}

theorem effect_of_intBinary {w p q : Nat} {op : Payload → Payload → Except FaultKind Slot}
    (hop : ∀ u v r, op u v = .ok r → r.tag = .int) (h : intBinary w p q op s = .next t) : Effect s t := by
  obtain ⟨f, callers, hs, ⟨u, v, r, hw, -, -, -, -, hr, rfl⟩ | ⟨k, rfl⟩⟩ := intBinary_next h
  · exact .wrote f callers w r hs hw (.inl (hop u v r hr))
  · exact .faulted f callers k hs

theorem effect_of_floatDrawing {w p q : Nat} {op : Payload → Payload → Except FaultKind Slot}
    (hop : ∀ u v r, op u v = .ok r → r.tag = .float)
    (h : floatBinary w p q op State.nextDraw s = .next t) : Effect s t := by
  obtain ⟨f, callers, hs, ⟨u, v, r, hw, -, -, -, -, hr, rfl⟩ | ⟨k, rfl⟩⟩ := floatBinary_next h
  · exact .wroteDrawing f callers w r hs hw (hop u v r hr)
  · exact .faulted f callers k hs

theorem effect_of_jump {o : Host.Outcome State Fault Refusal} (h : o = .next t)
    (hj : o = .next t → JumpAnswers s t) (hs : ∃ f callers, s.stack = f :: callers) : Effect s t := by
  obtain ⟨f, callers, hs⟩ := hs
  obtain ⟨n, hn, rfl⟩ | rfl | ⟨k, rfl⟩ := hj h
  · exact .jumped f callers n hs hn
  · exact .advanced f callers hs
  · exact .faulted f callers k hs

theorem attempt_of_empty {rule : Frame → List Frame → Except FaultKind State} (h : s.stack = []) :
    attempt s rule = .fault .noActiveFrame := by simp only [attempt, h]

/-- Without an active frame every instruction stops by name. -/
theorem exec_of_empty (i : Instr) (h : s.stack = []) : exec i s = .fault .noActiveFrame := by
  cases i <;> simp only [exec] <;> exact attempt_of_empty h

/-- An instruction that answers a next state had an active frame. -/
theorem stack_of_exec {i : Instr} (h : exec i s = .next t) : ∃ f callers, s.stack = f :: callers := by
  cases hs : s.stack with
  | nil => rw [exec_of_empty i hs] at h; cases h
  | cons f callers => exact ⟨f, callers, rfl⟩

/-- WHAT AN INSTRUCTION CAN DO: whatever next state `exec` answers is one of the effects. -/
theorem exec_effect {i : Instr} (h : exec i s = .next t) : Effect s t := by
  cases i with
  | nop =>
    obtain ⟨f, callers, hs⟩ := stack_of_exec h
    rw [execNop_next h]
    exact .advanced f callers hs
  | print reg =>
    obtain ⟨f, callers, hs, ⟨v, h1, h2, h3, rfl⟩ | ⟨k, rfl⟩⟩ := execPrint_next h
    · exact .emitted f callers reg v hs h1 h2 h3
    · exact .faulted f callers k hs
  | load w index =>
    obtain ⟨f, callers, hs, ⟨e, v, hw, -, hv, rfl⟩ | ⟨k, rfl⟩⟩ := execLoad_next h
    · refine .wrote f callers w v hs hw ?_
      obtain ⟨-, rfl⟩ | ⟨-, rfl⟩ := constSlot_ok.1 hv <;> simp [Slot.tag]
    · exact .faulted f callers k hs
  | add w p q => exact effect_of_intBinary (by rintro u v r h; cases h; rfl) h
  | sub w p q => exact effect_of_intBinary (by rintro u v r h; cases h; rfl) h
  | mult w p q => exact effect_of_intBinary (by rintro u v r h; cases h; rfl) h
  | div w p q =>
    refine effect_of_intBinary ?_ h
    intro u v r h
    obtain ⟨-, -, h⟩ := except_bind_ok.1 h
    cases h; rfl
  | mod w p q =>
    refine effect_of_intBinary ?_ h
    intro u v r h
    obtain ⟨-, -, h⟩ := except_bind_ok.1 h
    cases h; rfl
  | neg w p =>
    obtain ⟨f, callers, hs, ⟨u, hw, -, -, rfl⟩ | ⟨k, rfl⟩⟩ := execNeg_next h
    · exact .wrote f callers w _ hs hw (.inl rfl)
    · exact .faulted f callers k hs
  | fAdd w p q => exact effect_of_floatDrawing (by rintro u v r h; cases h; rfl) h
  | fDiv w p q =>
    refine effect_of_floatDrawing ?_ h
    intro u v r h
    obtain ⟨-, -, h⟩ := except_bind_ok.1 h
    cases h; rfl
  | lt w p q => exact effect_of_intBinary (by rintro u v r h; cases h; rfl) h
  | fLt w p q =>
    obtain ⟨f, callers, hs, ⟨u, v, r, hw, -, -, -, -, hr, rfl⟩ | ⟨k, rfl⟩⟩ := floatBinary_next h
    · refine .wrote f callers w r hs hw (.inl ?_)
      cases hr; rfl
    · exact .faulted f callers k hs
  | jmp target => exact effect_of_jump h jumpTo_next (stack_of_exec h)
  | jmpT reg target => exact effect_of_jump h jumpToIf_next (stack_of_exec h)
  | jmpF reg target => exact effect_of_jump h jumpToIf_next (stack_of_exec h)
  | jmpC index => exact effect_of_jump h jumpConst_next (stack_of_exec h)
  | jmpTC reg index => exact effect_of_jump h jumpConstIf_next (stack_of_exec h)
  | jmpFC reg index => exact effect_of_jump h jumpConstIf_next (stack_of_exec h)
  | rJmp offset => exact effect_of_jump h jumpTo_next (stack_of_exec h)
  | rJmpT reg offset => exact effect_of_jump h jumpToIf_next (stack_of_exec h)
  | rJmpF reg offset => exact effect_of_jump h jumpToIf_next (stack_of_exec h)
  | rJmpC index => exact effect_of_jump h jumpConst_next (stack_of_exec h)
  | rJmpTC reg index => exact effect_of_jump h jumpConstIf_next (stack_of_exec h)
  | rJmpFC reg index => exact effect_of_jump h jumpConstIf_next (stack_of_exec h)
  | call n start func =>
    obtain ⟨f, callers, hs, ⟨e, he, hk, h1, h2, h3, h4, h5, h6, rfl⟩ | ⟨k, rfl⟩⟩ := execCall_next h
    · exact .called f callers n start func e hs he hk h1 h2 h3 h4 h5 h6
    · exact .faulted f callers k hs
  | ret n start =>
    obtain ⟨f, callers, hs, ⟨rfl, h1, rfl⟩ | ⟨c, rest, rfl, h1, h2, h3, rfl⟩ | ⟨k, rfl⟩⟩ := execRet_next h
    · exact .ended f n start hs h1
    · exact .returned f c rest n start hs h1 h2 h3
    · exact .faulted f callers k hs

/-! ## The step -/

theorem step_of_halted (h : s.run = .halted) : step s = .next s := by simp [step, h]

theorem step_of_running (h : s.run = .running) : step s = stepRunning s := by simp [step, h]

/-- Running with an active frame at a word that decodes to `i`, a step is `exec i`. -/
theorem step_of_decoded {f : Frame} {callers : List Frame} {w : Word} {i : Instr} (hr : s.run = .running)
    (hs : s.stack = f :: callers) (hw : s.code[f.ip]? = some w) (hi : decode w = .ok i) :
    step s = exec i s := by
  have hf : s.fetch = some w := by rw [State.fetch, State.ip_of_stack hs, hw]
  simp [step_of_running hr, stepRunning, hs, hf, dispatch, hi]

/-- WHAT A STEP CAN DO: stay halted, halt on an exhausted stream, take the decode fault, or run the
fetched instruction. -/
theorem step_next (h : step s = .next t) :
    (s.run = .halted ∧ t = s) ∨
      (s.run = .running ∧ ∃ f callers, s.stack = f :: callers ∧
        ((s.codeLen ≤ f.ip ∧ t = s.halt (.normal [])) ∨
          ∃ w, s.code[f.ip]? = some w ∧
            (((∃ e, decode w = .error e) ∧ t = raise .decodeFault s) ∨
              ∃ i, decode w = .ok i ∧ exec i s = .next t))) := by
  cases hr : s.run with
  | halted => rw [step_of_halted hr] at h; cases h; exact .inl ⟨rfl, rfl⟩
  | running =>
    refine .inr ⟨rfl, ?_⟩
    rw [step_of_running hr] at h
    cases hs : s.stack with
    | nil => simp [stepRunning, hs] at h
    | cons f callers =>
      refine ⟨f, callers, rfl, ?_⟩
      have hf : s.fetch = s.code[f.ip]? := by rw [State.fetch, State.ip_of_stack hs]
      cases hw : s.code[f.ip]? with
      | none =>
        rw [hw] at hf
        simp only [stepRunning, hs, hf] at h
        cases h
        exact .inl ⟨List.getElem?_eq_none_iff.1 hw, rfl⟩
      | some w =>
        rw [hw] at hf
        simp only [stepRunning, hs, hf] at h
        refine .inr ⟨w, rfl, ?_⟩
        cases hd : decode w with
        | error e => simp only [dispatch, hd] at h; cases h; exact .inl ⟨⟨e, rfl⟩, rfl⟩
        | ok i => simp only [dispatch, hd] at h; exact .inr ⟨i, rfl, h⟩

end Sys2Proof.Machine
end

