-- ==== Sys2Proof/Tests/Slice0.lean ====
section
/-! SUPPORT. Tests with expected values from 95_test_vectors.md (the vector's name stands in each comment),
the smoke tests of WellFormed, a decoding of every constructor from a word of the spec's encoding, and for
every statement with hypotheses a witness that meets them. -/

namespace Sys2Proof.Tests

open Sys2Proof Sys2Proof.Machine Sys2Proof.Safety

/-! ## Small states -/

/-- A running machine with an arena of 16 slots, the first ones given. -/
def machine (code : List Word) (pool : List Const) (regs : List Slot) (stack : List Frame) : State :=
  { code := code
    pool := pool
    maxDepth := 8
    entryWindow := 8
    rf := regs ++ List.replicate (16 - regs.length) .invalid
    stack := stack
    run := .running
    result := .normal []
    out := []
    nanDraws := 0 }

/-- The outermost frame at `ip`. -/
def outer (ip : Nat) : Frame := { Frame.outermost 8 with ip := ip }

/-- Ten words, all `Nop` but the one at index 4. -/
def tenWords (w : Word) : List Word := (List.replicate 10 0).set 4 w

/-- A word at index 4 of ten, about to run in the outermost frame. -/
def about (w : Word) (pool : List Const) (regs : List Slot) : State :=
  machine (tenWords w) pool regs [outer 4]

/-- Registers `r1` to `r3`. -/
def three (a b c : Slot) : List Slot := [.invalid, a, b, c]

/-- A constant no `Call` names. -/
def const (kind : ConstKind) (value : Payload) : Const :=
  { kind := kind, value := value, window := 0, nret := 0 }

/-- A function constant. -/
def function (entry : Payload) (window nret : Nat) : Const :=
  { kind := .jump, value := entry, window := window, nret := nret }

/-- The next state. -/
def after (s : State) : State :=
  match step s with
  | .next t => t
  | .fault _ => s
  | .refused _ => s

/-- The word, run on `a` in `r2` and `b` in `r3`, leaves `r` in `r1` and advances. -/
def gives (w : Word) (a b r : Slot) : Bool :=
  (after (about w [] (three (.int 9) a b))).slotAt 1 == r && (after (about w [] (three (.int 9) a b))).ip == 5

/-- The word, run on these registers, leaves `ip` at `n` and the machine running. -/
def goesTo (w : Word) (pool : List Const) (regs : List Slot) (n : Nat) : Bool :=
  (after (about w pool regs)).ip == n && (after (about w pool regs)).run == .running

/-- The word, run on these registers, faults, and the machine is as before but for that. -/
def faults (w : Word) (pool : List Const) (regs : List Slot) (k : FaultKind) : Bool :=
  after (about w pool regs) == (about w pool regs).halt (.fault k 4 1)

/-- `r2` alone. -/
def guard (v : Slot) : List Slot := three .invalid v .invalid

/-- The pool P of the jump vectors. -/
def poolP : List Const := [const .int 7, const .jump 7]

/-- The pool Q of the jump vectors: the `Jump` constants -2 and 3. -/
def poolQ : List Const := [const .jump 0xFFFFFFFFFFFFFFFE, const .jump 3]

/-- The pool of the `Call` vectors. -/
def poolCall : List Const :=
  [const .int 1, function 6 2 1, function 10 2 1, function 6 60 0, function 6 2 2]

/-- A called frame at `ip` over the outermost frame that waits at 5. -/
def called (w : Word) (ip nret retdst : Nat) (regs : List Slot) : State :=
  machine ((List.replicate 10 0).set ip w) [] regs
    [{ ip := ip, base := 8, size := 2, nret := nret, retdst := retdst, codeBase := 6 }, outer 5]


/-! ## WellFormed refuses -/

theorem test_illFormed_shapeA :
    [Instr.print (2 ^ 56), .jmp (2 ^ 56), .jmpC (2 ^ 56), .rJmpC (2 ^ 56), .rJmp (2 ^ 55),
      .rJmp (-(2 ^ 55) - 1)].all (fun i => !i.wellFormed) = true := by decide
theorem test_illFormed_shapeB_first :
    [Instr.load (2 ^ 24) 0, .jmpT (2 ^ 24) 0, .jmpF (2 ^ 24) 0, .jmpTC (2 ^ 24) 0, .jmpFC (2 ^ 24) 0,
      .rJmpTC (2 ^ 24) 0, .rJmpFC (2 ^ 24) 0, .rJmpT (2 ^ 24) 0, .rJmpF (2 ^ 24) 0].all
      (fun i => !i.wellFormed) = true := by decide
theorem test_illFormed_shapeB_second :
    [Instr.load 0 (2 ^ 32), .jmpT 0 (2 ^ 32), .jmpF 0 (2 ^ 32), .jmpTC 0 (2 ^ 32), .jmpFC 0 (2 ^ 32),
      .rJmpTC 0 (2 ^ 32), .rJmpFC 0 (2 ^ 32)].all
      (fun i => !i.wellFormed) = true := by decide
theorem test_illFormed_offset32 :
    [Instr.rJmpT 0 (2 ^ 31), .rJmpT 0 (-(2 ^ 31) - 1), .rJmpF 0 (2 ^ 31), .rJmpF 0 (-(2 ^ 31) - 1)].all
      (fun i => !i.wellFormed) = true := by decide
theorem test_illFormed_shapeC_first :
    [Instr.add 65536 0 0, .sub 65536 0 0, .mult 65536 0 0, .div 65536 0 0, .mod 65536 0 0,
      .fAdd 65536 0 0, .fDiv 65536 0 0, .lt 65536 0 0, .fLt 65536 0 0, .call 65536 0 0, .neg 65536 0,
      .ret 65536 0].all
      (fun i => !i.wellFormed) = true := by decide
theorem test_illFormed_shapeC_second :
    [Instr.add 0 65536 0, .sub 0 65536 0, .mult 0 65536 0, .div 0 65536 0, .mod 0 65536 0,
      .fAdd 0 65536 0, .fDiv 0 65536 0, .lt 0 65536 0, .fLt 0 65536 0, .call 0 65536 0, .neg 0 65536,
      .ret 0 65536].all
      (fun i => !i.wellFormed) = true := by decide
theorem test_illFormed_shapeC_third :
    [Instr.add 0 0 65536, .sub 0 0 65536, .mult 0 0 65536, .div 0 0 65536, .mod 0 0 65536,
      .fAdd 0 0 65536, .fDiv 0 0 65536, .lt 0 0 65536, .fLt 0 0 65536, .call 0 0 65536].all
      (fun i => !i.wellFormed) = true := by decide
theorem test_wellFormed_extremes :
    [Instr.jmp (2 ^ 56 - 1), .rJmp (-(2 ^ 55)), .rJmp (2 ^ 55 - 1), .load (2 ^ 24 - 1) (2 ^ 32 - 1),
      .rJmpT 0 (-(2 ^ 31)), .add 65535 65535 65535].all Instr.wellFormed = true := by decide
/-- S4. -/
theorem test_encode_refuses_wide_operand : encode (.add 65536 0 0) = .error .operandDoesNotFit := by
  decide

/-! ## Decoding of every constructor, from words of the spec -/

/-- E1. -/
theorem test_decode_nop :
    decode 0x0000000000000000 = .ok .nop ∧ encode .nop = .ok 0x0000000000000000 := by decide
/-- E2. -/
theorem test_decode_print :
    decode 0x0000000000000301 = .ok (.print 3) ∧ encode (.print 3) = .ok 0x0000000000000301 := by decide
/-- S1. -/
theorem test_decode_load :
    decode 0x0000000A00000302 = .ok (.load 3 10) ∧
      encode (.load 3 10) = .ok 0x0000000A00000302 := by decide
/-- S2. -/
theorem test_decode_add :
    decode 0x0000030002000110 = .ok (.add 1 2 3) ∧
      encode (.add 1 2 3) = .ok 0x0000030002000110 := by decide
/-- A3. -/
theorem test_decode_sub :
    decode 0x0000030002000111 = .ok (.sub 1 2 3) ∧
      encode (.sub 1 2 3) = .ok 0x0000030002000111 := by decide
/-- A5. -/
theorem test_decode_mult :
    decode 0x0000030002000112 = .ok (.mult 1 2 3) ∧
      encode (.mult 1 2 3) = .ok 0x0000030002000112 := by decide
/-- A8. -/
theorem test_decode_div :
    decode 0x0000030002000113 = .ok (.div 1 2 3) ∧
      encode (.div 1 2 3) = .ok 0x0000030002000113 := by decide
/-- A10. -/
theorem test_decode_mod :
    decode 0x0000030002000114 = .ok (.mod 1 2 3) ∧
      encode (.mod 1 2 3) = .ok 0x0000030002000114 := by decide
/-- E3. -/
theorem test_decode_neg :
    decode 0x0000000002000115 = .ok (.neg 1 2) ∧ encode (.neg 1 2) = .ok 0x0000000002000115 := by decide
/-- F1. -/
theorem test_decode_fAdd :
    decode 0x0000030002000120 = .ok (.fAdd 1 2 3) ∧
      encode (.fAdd 1 2 3) = .ok 0x0000030002000120 := by decide
/-- F4. -/
theorem test_decode_fDiv :
    decode 0x0000030002000121 = .ok (.fDiv 1 2 3) ∧
      encode (.fDiv 1 2 3) = .ok 0x0000030002000121 := by decide
/-- K1. -/
theorem test_decode_lt :
    decode 0x0000030002000130 = .ok (.lt 1 2 3) ∧ encode (.lt 1 2 3) = .ok 0x0000030002000130 := by decide
/-- K4. -/
theorem test_decode_fLt :
    decode 0x0000030002000131 = .ok (.fLt 1 2 3) ∧
      encode (.fLt 1 2 3) = .ok 0x0000030002000131 := by decide
/-- J1. -/
theorem test_decode_jmp :
    decode 0x0000000000000740 = .ok (.jmp 7) ∧ encode (.jmp 7) = .ok 0x0000000000000740 := by decide
/-- J3. -/
theorem test_decode_jmpT :
    decode 0x0000000700000241 = .ok (.jmpT 2 7) ∧ encode (.jmpT 2 7) = .ok 0x0000000700000241 := by decide
/-- J5. -/
theorem test_decode_jmpF :
    decode 0x0000000700000242 = .ok (.jmpF 2 7) ∧ encode (.jmpF 2 7) = .ok 0x0000000700000242 := by decide
/-- E9. -/
theorem test_decode_jmpC :
    decode 0x0000000000000144 = .ok (.jmpC 1) ∧ encode (.jmpC 1) = .ok 0x0000000000000144 := by decide
/-- E9. -/
theorem test_decode_jmpTC :
    decode 0x0000000100000245 = .ok (.jmpTC 2 1) ∧
      encode (.jmpTC 2 1) = .ok 0x0000000100000245 := by decide
/-- E9. -/
theorem test_decode_jmpFC :
    decode 0x0000000100000246 = .ok (.jmpFC 2 1) ∧
      encode (.jmpFC 2 1) = .ok 0x0000000100000246 := by decide
/-- S4. -/
theorem test_decode_rJmp :
    decode 0xFFFFFFFFFFFFFD48 = .ok (.rJmp (-3)) ∧
      encode (.rJmp (-3)) = .ok 0xFFFFFFFFFFFFFD48 := by decide
/-- E5. -/
theorem test_decode_rJmpT :
    decode 0xFFFFFFFD00000349 = .ok (.rJmpT 3 (-3)) ∧
      encode (.rJmpT 3 (-3)) = .ok 0xFFFFFFFD00000349 := by decide
/-- E6. -/
theorem test_decode_rJmpF :
    decode 0xFFFFFFFE0000014A = .ok (.rJmpF 1 (-2)) ∧
      encode (.rJmpF 1 (-2)) = .ok 0xFFFFFFFE0000014A := by decide
/-- E10. -/
theorem test_decode_rJmpC :
    decode 0x000000000000014C = .ok (.rJmpC 1) ∧ encode (.rJmpC 1) = .ok 0x000000000000014C := by decide
/-- E10. -/
theorem test_decode_rJmpTC :
    decode 0x000000010000024D = .ok (.rJmpTC 2 1) ∧
      encode (.rJmpTC 2 1) = .ok 0x000000010000024D := by decide
/-- E10. -/
theorem test_decode_rJmpFC :
    decode 0x000000010000024E = .ok (.rJmpFC 2 1) ∧
      encode (.rJmpFC 2 1) = .ok 0x000000010000024E := by decide
/-- E7. -/
theorem test_decode_call :
    decode 0x0000070004000250 = .ok (.call 2 4 7) ∧
      encode (.call 2 4 7) = .ok 0x0000070004000250 := by decide
/-- E8. -/
theorem test_decode_ret :
    decode 0x0000000002000151 = .ok (.ret 1 2) ∧ encode (.ret 1 2) = .ok 0x0000000002000151 := by decide
/-- E11. -/
theorem test_decode_ignores_unused :
    decode 0xAABEEF0002000115 = .ok (.neg 1 2) ∧
      decodeRaw 0xAABEEF0002000115 = (0x15, .shapeC 1 2 0xBEEF) := by decide
/-- E12. -/
theorem test_decode_nop_with_argument : decode 0xFFFFFFFFFFFFFF00 = .ok .nop := by decide
/-- E13. -/
theorem test_decode_unassigned :
    decode 0x00000000000000FF = .error (.unassignedOpcode 0xFF) ∧
      decodeRaw 0x00000000000000FF = (0xFF, .shapeA 0) := by decide
/-- E14. -/
theorem test_decode_reserved_simd :
    decode 0x0000030002000160 = .error (.unassignedOpcode 0x60) := by decide
/-- E15. -/
theorem test_decode_bytes :
    decodeBytes [0x02, 0x03, 0x00, 0x00, 0x0A, 0x00, 0x00, 0x00] = .ok (.load 3 10, []) := by decide
/-- A word has 8 bytes (20_memory.md R63). -/
theorem test_decode_short_bytes : decodeBytes [0x02, 0x03] = .error .truncatedWord := by decide
/-- S2, E14. -/
theorem test_decodeTableWord :
    decodeTableWord 64 0x0000030002000110 = some (.add 1 2 3) ∧
      decodeTableWord 64 0x60 = none := by decide
/-- S4. -/
theorem test_encode_extremes :
    encode (.jmp (2 ^ 56 - 1)) = .ok 0xFFFFFFFFFFFFFF40 ∧
      encode (.load (2 ^ 24 - 1) (2 ^ 32 - 1)) = .ok 0xFFFFFFFFFFFFFF02 ∧
      encode (.add 0xFFFF 0xFFFF 0xFFFF) = .ok 0x00FFFFFFFFFFFF10 := by decide
/-- E4. -/
theorem test_encode_minus_one : encode (.rJmp (-1)) = .ok 0xFFFFFFFFFFFFFF48 := by decide
/-- S3, P2, P3, P5. -/
theorem test_asmLine :
    asmLine (.load 0 0) = "Load r0, #0" ∧ asmLine (.jmpF 0 3) = "JmpF r0, 3" ∧
      asmLine (.rJmpT 4 (-4)) = "RJmpT r4, -4" ∧ asmLine (.call 2 4 2) = "Call 2, r4, #2" ∧
      asmLine (.add 1 2 3) = "Add r1, r2, r3" ∧ asmLine (.neg 3 2) = "Neg r3, r2" := by decide
/-- P2: the loop jump at index 7 to label 4. -/
theorem test_labelOffset : labelOffset 4 7 = -4 := by decide

/-! ## One step of each instruction -/

/-- M1. -/
theorem test_nop :
    (after (about 0 [] [])).ip = 5 ∧ (after (about 0 [] [])).rf = (about 0 [] []).rf := by decide
/-- M5. -/
theorem test_print_float :
    (after (about 0x0000000000000201 [] (three .invalid (.float 0x400E000000000000) .invalid))).out =
      [.float 0x400E000000000000] := by decide
/-- M4. -/
theorem test_print_invalid :
    (after (about 0x0000000000000001 [] [])).result = .fault .typeFault 4 1 ∧
      (after (about 0x0000000000000001 [] [])).out = [] := by decide
/-- L2. -/
theorem test_load_float :
    (after (about 0x0000000000000302 [const .float 0x4004000000000000] [])).slotAt 3 =
      .float 0x4004000000000000 := by decide
/-- L3. -/
theorem test_load_jump : faults 0x0000000000000302 [const .jump 1] [] .typeFault = true := by decide
/-- A2. -/
theorem test_add_wraps :
    gives 0x0000030002000110 (.int 0x7FFFFFFFFFFFFFFF) (.int 1) (.int 0x8000000000000000) = true := by
  decide
/-- A17. -/
theorem test_add_same_register :
    (after (about 0x0000010001000110 [] (three (.int 21) .invalid .invalid))).slotAt 1 = .int 42 := by
  decide
/-- A3. -/
theorem test_sub : gives 0x0000030002000111 (.int 5) (.int 7) (.int 0xFFFFFFFFFFFFFFFE) = true := by
  decide
/-- A4. -/
theorem test_sub_wraps :
    gives 0x0000030002000111 (.int 0x8000000000000000) (.int 1) (.int 0x7FFFFFFFFFFFFFFF) = true := by
  decide
/-- A6. -/
theorem test_mult_keeps_low_bits :
    gives 0x0000030002000112 (.int 0x100000000) (.int 0x100000000) (.int 0) = true := by decide
/-- A7. -/
theorem test_mult_wraps :
    gives 0x0000030002000112 (.int 0x7FFFFFFFFFFFFFFF) (.int 2) (.int 0xFFFFFFFFFFFFFFFE) = true := by
  decide
/-- A8. -/
theorem test_div_truncates :
    gives 0x0000030002000113 (.int 0xFFFFFFFFFFFFFFF9) (.int 2) (.int 0xFFFFFFFFFFFFFFFD) = true := by
  decide
/-- A12. -/
theorem test_div_min_by_minus_one :
    gives 0x0000030002000113 (.int 0x8000000000000000) (.int 0xFFFFFFFFFFFFFFFF)
      (.int 0x8000000000000000) = true := by decide
/-- A10. -/
theorem test_mod_sign_of_dividend :
    gives 0x0000030002000114 (.int 0xFFFFFFFFFFFFFFF9) (.int 2) (.int 0xFFFFFFFFFFFFFFFF) = true := by
  decide
/-- A20. -/
theorem test_mod_by_zero :
    faults 0x0000030002000114 [] (three (.int 9) (.int 5) (.int 0)) .arithmeticFault = true := by decide
/-- A18. -/
theorem test_neg : gives 0x0000000002000115 (.int 5) .invalid (.int 0xFFFFFFFFFFFFFFFB) = true := by
  decide
/-- A19. -/
theorem test_neg_min :
    gives 0x0000000002000115 (.int 0x8000000000000000) .invalid (.int 0x8000000000000000) = true := by
  decide
/-- F2. -/
theorem test_fAdd_rounds :
    gives 0x0000030002000120 (.float 0x3FB999999999999A) (.float 0x3FC999999999999A)
      (.float 0x3FD3333333333334) = true := by decide +kernel
/-- F3. -/
theorem test_fAdd_overflows :
    gives 0x0000030002000120 (.float 0x7FEFFFFFFFFFFFFF) (.float 0x7FEFFFFFFFFFFFFF)
      (.float 0x7FF0000000000000) = true := by decide +kernel
/-- F5. -/
theorem test_fDiv_rounds :
    gives 0x0000030002000121 (.float 0x3FF0000000000000) (.float 0x4008000000000000)
      (.float 0x3FD5555555555555) = true := by decide +kernel
/-- F6. -/
theorem test_fDiv_by_minus_zero :
    faults 0x0000030002000121 [] (three (.int 9) (.float 0x3FF0000000000000)
      (.float 0x8000000000000000)) .arithmeticFault = true := by decide +kernel
/-- K1. -/
theorem test_lt_is_signed :
    gives 0x0000030002000130 (.int 0xFFFFFFFFFFFFFFFF) (.int 0) (.int 1) = true := by decide
/-- K2. -/
theorem test_lt_swapped :
    gives 0x0000030002000130 (.int 0) (.int 0xFFFFFFFFFFFFFFFF) (.int 0) = true := by decide
/-- K4. -/
theorem test_fLt_zeros :
    gives 0x0000030002000131 (.float 0x8000000000000000) (.float 0) (.int 0) = true := by decide +kernel
/-- K6. -/
theorem test_fLt_infinity :
    gives 0x0000030002000131 (.float 0xFFF0000000000000) (.float 0) (.int 1) = true := by decide +kernel
/-- J1. -/
theorem test_jmp : goesTo 0x0000000000000740 [] [] 7 = true := by decide
/-- J2. -/
theorem test_jmp_to_end : faults 0x0000000000000A40 [] [] .indexFault = true := by decide
/-- J3. -/
theorem test_jmpT_taken : goesTo 0x0000000700000241 [] (guard (.int 1)) 7 = true := by decide
/-- J4. -/
theorem test_jmpT_untaken : goesTo 0x0000006300000241 [] (guard (.int 0)) 5 = true := by decide
/-- J5. -/
theorem test_jmpF_taken : goesTo 0x0000000700000242 [] (guard (.int 0)) 7 = true := by decide
/-- J5. -/
theorem test_jmpF_untaken :
    goesTo 0x0000000700000242 [] (guard (.int 0xFFFFFFFFFFFFFFFF)) 5 = true := by decide
/-- J8. -/
theorem test_jmpC : goesTo 0x0000000000000144 poolP [] 7 = true := by decide
/-- J7b. -/
theorem test_jmpC_wrong_kind : faults 0x0000000000000044 poolP [] .typeFault = true := by decide
/-- J9. -/
theorem test_jmpTC_taken : goesTo 0x0000000100000245 poolP (guard (.int 5)) 7 = true := by decide
/-- J11. -/
theorem test_jmpTC_untaken_wrong_kind :
    faults 0x0000000000000245 poolP (guard (.int 0)) .typeFault = true := by decide
/-- J10. -/
theorem test_jmpFC_taken : goesTo 0x0000000100000246 poolP (guard (.int 0)) 7 = true := by decide
/-- J10. -/
theorem test_jmpFC_untaken : goesTo 0x0000000100000246 poolP (guard (.int 1)) 5 = true := by decide
/-- J15. -/
theorem test_rJmp_back : goesTo 0xFFFFFFFFFFFFFB48 [] [] 0 = true := by decide
/-- J16. -/
theorem test_rJmp_below_zero : faults 0xFFFFFFFFFFFFFA48 [] [] .indexFault = true := by decide
/-- J19. -/
theorem test_rJmpT_taken : goesTo 0xFFFFFFFD00000249 [] (guard (.int 1)) 2 = true := by decide
/-- J19. -/
theorem test_rJmpT_untaken : goesTo 0xFFFFFFFD00000249 [] (guard (.int 0)) 5 = true := by decide
/-- J20. -/
theorem test_rJmpF_taken : goesTo 0x000000020000024A [] (guard (.int 0)) 7 = true := by decide
/-- J20. -/
theorem test_rJmpF_untaken : goesTo 0x000000020000024A [] (guard (.int 1)) 5 = true := by decide
/-- J21. -/
theorem test_rJmpC : goesTo 0x000000000000004C poolQ [] 3 = true := by decide
/-- J22. -/
theorem test_rJmpTC_taken : goesTo 0x000000010000024D poolQ (guard (.int 1)) 8 = true := by decide
/-- J22. -/
theorem test_rJmpTC_untaken : goesTo 0x000000010000024D poolQ (guard (.int 0)) 5 = true := by decide
/-- J24. -/
theorem test_rJmpFC_taken : goesTo 0x000000000000024E poolQ (guard (.int 0)) 3 = true := by decide
/-- J23. -/
theorem test_rJmpFC_untaken : goesTo 0x000000010000024E poolQ (guard (.int 1)) 5 = true := by decide
/-- C7. -/
theorem test_call :
    (after (about 0x0000010000000050 poolCall [])).stack =
      [{ ip := 6, base := 8, size := 2, nret := 1, retdst := 0, codeBase := 6 }, outer 5] := by decide
/-- C3. -/
theorem test_call_too_many_arguments :
    faults 0x0000010000000350 poolCall [] .indexFault = true := by decide
/-- C12. -/
theorem test_ret :
    (after (called 0x0000000000000251 6 2 6 (List.replicate 8 .invalid ++ [.int 3, .int 4]))).rf =
      List.replicate 6 .invalid ++ [.int 3, .int 4, .int 3, .int 4] ++ List.replicate 6 .invalid ∧
      (after (called 0x0000000000000251 6 2 6 (List.replicate 8 .invalid ++ [.int 3,
      .int 4]))).stack = [outer 5] := by decide
/-- C15. -/
theorem test_ret_outermost_raw :
    (after (about 0x0000000000000151 [] [])).result = .normal [.invalid] := by decide

/-- U7: the patterns a NaN draw can give, at the ends of the fraction's range. -/
theorem test_nanPattern_extremes :
    nanPattern false 0 = 0x7FF0000000000001 ∧
      nanPattern true ⟨2 ^ 52 - 2, by decide⟩ = 0xFFFFFFFFFFFFFFFF := by decide +kernel

/-! ## Load check, reset, fetch -/

/-- R1. -/
theorem test_loadCheck_empty : loadCheck [] [] = some 0 := by decide
/-- R2. -/
theorem test_loadCheck_unassigned : loadCheck [0, 0x00000000000000FF] [] = some 1 := by decide
/-- R3. -/
theorem test_loadCheck_constant_index : loadCheck [0x0000000000000002] [] = some 0 := by decide
/-- R4. -/
theorem test_loadCheck_call_index :
    loadCheck [0, 0x0000030000000050] [const .int 0, const .int 0, const .int 0] = some 1 := by decide
/-- R5, R7. -/
theorem test_loadCheck_ignores_kinds_and_targets :
    loadCheck [0x0000000000000002, 0x0000000000000540] [const .jump 0] = none := by decide
/-- R2. -/
theorem test_boot_failed :
    (boot Config.standard [0, 0xFF] []).map State.result = some (.fault .loadFault 1 0) := by decide
/-- R6. -/
theorem test_step_exhausted :
    (after (machine [0] [] [] [outer 1])).result = .normal [] ∧
      (after (machine [0] [] [] [outer 1])).run = .halted := by decide
/-- E13. -/
theorem test_step_unassigned : (after (about 0xFF [] [])).result = .fault .decodeFault 4 1 := by decide
/-- C13, as the first instruction after reset. -/
theorem test_withFetchWord :
    (State.reset.withFetchWord 64 0x0000000000000051).fetch = some 0x51 ∧
      (after (State.reset.withFetchWord 64 0x0000000000000051)).result = .normal [] := by decide

/-! ## Witnesses: each statement's hypotheses hold together somewhere -/

/-- A halting helper's state, an active frame with room for one more window and integers in `r2`, `r3`. -/
def ints (u v : Payload) : State := about 0x0000030002000110 [] (three (.int 9) (.int u) (.int v))

/-- The same with floats. -/
def floats (u v : Payload) : State := about 0x0000030002000120 [] (three (.int 9) (.float u) (.float v))

/-- A frame holding a guard in `r7`, the last register of the window, with a pool of one `Jump` constant. -/
def guarded (g v : Payload) : State :=
  about 0 [const .jump v] (List.replicate 7 .invalid ++ [.int g])

theorem active_about (w : Word) (pool : List Const) (a b c : Slot) :
    Active (about w pool (three a b c)) (outer 4) [] :=
  ⟨rfl, by simp [State.regfileSize, about, machine, three, outer, Frame.outermost]⟩

theorem witness_DecodeInvertsEncode :
    (Instr.load (2 ^ 24 - 1) (2 ^ 32 - 1)).wellFormed = true ∧
      opcodeOf 0x00FFFFFFFFFFFF10 ∈ assignedOpcodes ∧ UnusedBitsZero 0x00FFFFFFFFFFFF10 := by
  refine ⟨by decide, by decide, ?_⟩
  unfold UnusedBitsZero
  decide

theorem witness_UnusedBitsAreIgnored :
    encode (.neg 1 2) = .ok 0x0000000002000115 ∧
      SameUsedBits 0x0000000002000115 0xAABEEF0002000115 := by
  refine ⟨by decide, ?_⟩
  unfold SameUsedBits
  decide

theorem witness_DecodeAcceptsAssignedOpcodes :
    opcodeOf 0xFFFFFFFFFFFFFF51 ∈ assignedOpcodes ∧ opcodeOf 0x0000000000000052 ∉ assignedOpcodes := by
  decide

theorem witness_RawDecodeCutsBitRanges :
    shapeOf (opcodeOf 0x0000000000000740) = .A ∧ shapeOf (opcodeOf 0x0000000A00000302) = .B ∧
      shapeOf (opcodeOf 0x0000030002000110) = .C ∧ 0xFF ∉ assignedOpcodes := by decide

theorem witness_UnitBytesAreLittleEndian :
    ([0, 0x0000000A00000302] : List Word)[1]? = some 0x0000000A00000302 ∧ 7 < 8 := by decide

theorem witness_LaunchGivesResetState :
    launchable { maxDepth := 1, regfileSize := 8, entryWindow := 8 } [0] [] = true ∧ loadCheck [0] [] = none := by
  decide

theorem witness_LoadCheckReportsFirstBadWord :
    launchable Config.standard [0, 0xFF] [] = true ∧ loadCheck [0, 0xFF] [] = some 1 ∧
      launchable Config.standard [] [] = true ∧ loadCheck [] [] = some 0 := by decide

theorem witness_StepRunsDecodedInstruction :
    (ints 5 7).run = .running ∧ (ints 5 7).stack = outer 4 :: [] ∧
      (ints 5 7).code[(outer 4).ip]? = some 0x0000030002000110 ∧
      decode 0x0000030002000110 = .ok (.add 1 2 3) := by decide

theorem witness_ExhaustedStreamHaltsNormally :
    (machine [0] [] [] [outer 1]).run = .running ∧ (machine [0] [] [] [outer 1]).stack = outer 1 :: [] ∧
      (machine [0] [] [] [outer 1]).codeLen ≤ (outer 1).ip := by decide

theorem witness_UnknownOpcodeRaisesDecodeFault :
    (about 0xFF [] []).run = .running ∧ (about 0xFF [] []).stack = outer 4 :: [] ∧
      (about 0xFF [] []).code[(outer 4).ip]? = some 0xFF ∧ opcodeOf 0xFF ∉ assignedOpcodes := by decide

theorem witness_HaltedIsTerminal : (State.reset.halt (.normal [])).run = .halted := rfl

theorem witness_NopOnlyAdvances : (about 0 [] []).stack = outer 4 :: [] := rfl

/-- `r6` `Int`, `r7`, the last register, `Float`, `r0` `Invalid`, `r1` `Vec`, `r8` outside. -/
theorem witness_PrintEmitsNumericSlot :
    let s := about 0 [] [.invalid, .vec, .invalid, .invalid, .invalid, .invalid, .int 3, .float 0]
    s.stack = outer 4 :: [] ∧
      (6 < (outer 4).size ∧ s.slotAt ((outer 4).base + 6) = .int 3) ∧
      (7 < (outer 4).size ∧ s.slotAt ((outer 4).base + 7) = .float 0) ∧ (outer 4).size ≤ 8 ∧
      (0 < (outer 4).size ∧ s.slotAt ((outer 4).base + 0) = .invalid) ∧
      (1 < (outer 4).size ∧ s.slotAt ((outer 4).base + 1) = .vec) := by decide

/-- `Int`, `Float` and `Jump` constants into `r7`, the last register; register 8 and constant 3 do not exist. -/
theorem witness_LoadCopiesConstant :
    let s := about 0 [const .int 42, const .float 0, const .jump 1] (three .invalid .invalid .invalid)
    Active s (outer 4) [] ∧
      (7 < (outer 4).size ∧ s.pool[0]? = some (const .int 42) ∧ (const .int 42).kind = .int) ∧
      (7 < (outer 4).size ∧ s.pool[1]? = some (const .float 0) ∧ (const .float 0).kind = .float) ∧
      (outer 4).size ≤ 8 ∧ s.poolLen ≤ 3 ∧
      (7 < (outer 4).size ∧ s.pool[2]? = some (const .jump 1) ∧ (const .jump 1).kind = .jump) :=
  ⟨active_about _ _ _ _ _, by decide, by decide, by decide, by decide, by decide⟩

theorem intSources (u v : Payload) : IntSources (ints u v) (outer 4) 2 3 u v :=
  ⟨by decide, by decide, rfl, rfl⟩

theorem floatSources (u v : Payload) : FloatSources (floats u v) (outer 4) 2 3 u v :=
  ⟨by decide, by decide, rfl, rfl⟩

theorem witness_AddSubMultWriteWrappedResult :
    Active (ints 0x7FFFFFFFFFFFFFFF 1) (outer 4) [] ∧ 7 < (outer 4).size ∧
      IntSources (ints 0x7FFFFFFFFFFFFFFF 1) (outer 4) 2 3 0x7FFFFFFFFFFFFFFF 1 :=
  ⟨active_about _ _ _ _ _, by decide, intSources _ _⟩

/-- `MIN / -1`, into the last register. -/
theorem witness_DivModTruncateTowardZero :
    Active (ints 0x8000000000000000 0xFFFFFFFFFFFFFFFF) (outer 4) [] ∧ 7 < (outer 4).size ∧
      IntSources (ints 0x8000000000000000 0xFFFFFFFFFFFFFFFF) (outer 4) 2 3 0x8000000000000000
        0xFFFFFFFFFFFFFFFF ∧ (0xFFFFFFFFFFFFFFFF : Payload) ≠ 0 :=
  ⟨active_about _ _ _ _ _, by decide, intSources _ _, by decide⟩

theorem witness_NegWritesWrappedNegation :
    Active (ints 0x8000000000000000 0) (outer 4) [] ∧ 7 < (outer 4).size ∧ 2 < (outer 4).size ∧
      (ints 0x8000000000000000 0).slotAt ((outer 4).base + 2) = .int 0x8000000000000000 :=
  ⟨active_about _ _ _ _ _, by decide, by decide, by decide⟩

theorem witness_LtWritesSignedComparison :
    Active (ints 0xFFFFFFFFFFFFFFFF 0) (outer 4) [] ∧ 7 < (outer 4).size ∧
      IntSources (ints 0xFFFFFFFFFFFFFFFF 0) (outer 4) 2 3 0xFFFFFFFFFFFFFFFF 0 :=
  ⟨active_about _ _ _ _ _, by decide, intSources _ _⟩

/-- A10 and A8: -7 by 2; and `MIN` by -1, A12 and A13. -/
theorem witness_DivisionLaws :
    (let s := ints 0xFFFFFFFFFFFFFFF9 2
     let t := (s.setSlot 1 (.int 0xFFFFFFFFFFFFFFFD)).advance
     let t' := (s.setSlot 1 (.int 0xFFFFFFFFFFFFFFFF)).advance
     Active s (outer 4) [] ∧ 1 < (outer 4).size ∧
       IntSources s (outer 4) 2 3 0xFFFFFFFFFFFFFFF9 2 ∧ (2 : Payload) ≠ 0 ∧
       exec (.div 1 2 3) s = .next t ∧ t.slotAt ((outer 4).base + 1) = .int 0xFFFFFFFFFFFFFFFD ∧
       exec (.mod 1 2 3) s = .next t' ∧ t'.slotAt ((outer 4).base + 1) = .int 0xFFFFFFFFFFFFFFFF) ∧
    (let s := ints 0x8000000000000000 0xFFFFFFFFFFFFFFFF
     let t := (s.setSlot 1 (.int 0x8000000000000000)).advance
     let t' := (s.setSlot 1 (.int 0)).advance
     Active s (outer 4) [] ∧
       IntSources s (outer 4) 2 3 0x8000000000000000 0xFFFFFFFFFFFFFFFF ∧
       exec (.div 1 2 3) s = .next t ∧ t.slotAt ((outer 4).base + 1) = .int 0x8000000000000000 ∧
       exec (.mod 1 2 3) s = .next t' ∧ t'.slotAt ((outer 4).base + 1) = .int 0) :=
  ⟨⟨active_about _ _ _ _ _, by decide, intSources _ _, by decide, rfl, rfl, rfl, rfl⟩,
    active_about _ _ _ _ _, intSources _ _, rfl, rfl, rfl, rfl⟩

/-- A finite sum, and `+inf + -inf`, whose sum is a NaN (F9). -/
theorem witness_FAddWritesSumOrNaN :
    (Active (floats 0 0) (outer 4) [] ∧ 7 < (outer 4).size ∧ FloatSources (floats 0 0) (outer 4) 2 3 0 0) ∧
      FloatSources (floats 0x7FF0000000000000 0xFFF0000000000000) (outer 4) 2 3 0x7FF0000000000000
        0xFFF0000000000000 ∧ f64Add 0x7FF0000000000000 0xFFF0000000000000 = none :=
  ⟨⟨active_about _ _ _ _ _, by decide, floatSources _ _⟩, floatSources _ _, by decide +kernel⟩

/-- The least subnormal as a divisor, and the two zeros. -/
theorem witness_FDivWritesQuotientOrFaults :
    Active (floats 0 1) (outer 4) [] ∧ 7 < (outer 4).size ∧ FloatSources (floats 0 1) (outer 4) 2 3 0 1 ∧
      (1 : Payload) ≠ 0x0000000000000000 ∧ (1 : Payload) ≠ 0x8000000000000000 ∧
      FloatSources (floats 0 0) (outer 4) 2 3 0 0x0000000000000000 ∧
      FloatSources (floats 0 0x8000000000000000) (outer 4) 2 3 0 0x8000000000000000 :=
  ⟨active_about _ _ _ _ _, by decide, floatSources _ _, by decide, by decide, floatSources _ _, floatSources _ _⟩

theorem witness_FLtWritesIntComparison :
    Active (floats 0 1) (outer 4) [] ∧ 7 < (outer 4).size ∧ FloatSources (floats 0 1) (outer 4) 2 3 0 1 :=
  ⟨active_about _ _ _ _ _, by decide, floatSources _ _⟩

theorem witness_NaNResultsAreTheInvalidOnes :
    f64IsZero 1 = false ∧ f64Add 0 0 = some 0 ∧ f64Div 0 1 = some 0 ∧ f64IsNaN 0x7FF8000000000000 = true := by
  decide +kernel

/-- F2, rounded; F3, overflowing. -/
theorem witness_FAddIsCorrectlyRounded :
    (f64IsFinite 0x3FB999999999999A = true ∧ f64IsFinite 0x3FC999999999999A = true ∧
      f64Add 0x3FB999999999999A 0x3FC999999999999A = some 0x3FD3333333333334 ∧
      f64IsFinite 0x3FD3333333333334 = true) ∧
    (f64IsFinite 0x7FEFFFFFFFFFFFFF = true ∧
      f64Add 0x7FEFFFFFFFFFFFFF 0x7FEFFFFFFFFFFFFF = some 0x7FF0000000000000 ∧
      f64IsFinite 0x7FF0000000000000 = false) := by decide +kernel

/-- F5, rounded; 1.0 by the least subnormal, overflowing. -/
theorem witness_FDivIsCorrectlyRounded :
    (f64IsFinite 0x3FF0000000000000 = true ∧ f64IsFinite 0x4008000000000000 = true ∧
      f64IsZero 0x4008000000000000 = false ∧
      f64Div 0x3FF0000000000000 0x4008000000000000 = some 0x3FD5555555555555) ∧
    (f64IsFinite 1 = true ∧ f64IsZero 1 = false ∧ f64Div 0x3FF0000000000000 1 = some 0x7FF0000000000000) := by
  decide +kernel

/-- `-0.0 + -0.0`, and `1.0 + -1.0`. -/
theorem witness_FAddZeroSums :
    (f64IsFinite 0x8000000000000000 = true ∧
      f64Value 0x8000000000000000 + f64Value 0x8000000000000000 = 0) ∧
    (f64IsFinite 0x3FF0000000000000 = true ∧ f64IsFinite 0xBFF0000000000000 = true ∧
      f64Value 0x3FF0000000000000 + f64Value 0xBFF0000000000000 = 0) := by decide +kernel

theorem witness_FLtFollowsValueOrder :
    f64IsFinite 0x8000000000000000 = true ∧ f64IsFinite 0 = true ∧ f64IsInf 0xFFF0000000000000 = true ∧
      f64IsInf 0x7FF0000000000000 = true ∧ f64IsNaN 0x7FF0000000000000 = false := by decide +kernel

/-- Register 8 in each place; an `Invalid` slot in `r0`; an `Int` where `FAdd` wants a `Float`. -/
theorem witness_SourceFaultsComeInOrder :
    (ints 5 7).stack = outer 4 :: [] ∧ (outer 4).size ≤ 8 ∧ 7 < (outer 4).size ∧
      ((ints 5 7).slotAt ((outer 4).base + 0)).tag ≠ .int ∧
      ((ints 5 7).slotAt ((outer 4).base + 2)).tag ≠ .float := by decide

theorem witness_IntegerZeroDivisorFaults :
    (ints 5 0).stack = outer 4 :: [] ∧ 7 < (outer 4).size ∧ IntSources (ints 5 0) (outer 4) 2 3 5 0 :=
  ⟨rfl, by decide, intSources _ _⟩

theorem jumpConst_guarded (g v : Payload) : JumpConst (guarded g v) 0 v.toInt := ⟨_, rfl, rfl, rfl⟩

theorem guard_true : Guard (guarded 1 9) (outer 4) 7 true := ⟨by decide, 1, by decide, by decide⟩

theorem guard_false : Guard (guarded 0 9) (outer 4) 7 false := ⟨by decide, 0, by decide, by decide⟩

/-- The last word, index 9, and the first one as targets. -/
theorem witness_UnconditionalJumpsLand :
    (guarded 1 9).stack = outer 4 :: [] ∧ InCode (guarded 1 9) ((outer 4).codeBase + 9) ∧
      InCode (guarded 1 9) ((outer 4).ip + 1 + (-5)) ∧ JumpConst (guarded 1 9) 0 9 ∧
      JumpConst (guarded 1 4) 0 4 ∧ InCode (guarded 1 4) ((outer 4).ip + 1 + 4) :=
  ⟨rfl, by unfold InCode; decide, by unfold InCode; decide, jumpConst_guarded 1 9, jumpConst_guarded 1 4,
    by unfold InCode; decide⟩

theorem witness_GuardedJumpsLandOrFallThrough :
    (guarded 1 9).stack = outer 4 :: [] ∧ Guard (guarded 1 9) (outer 4) 7 true ∧
      Guard (guarded 0 9) (outer 4) 7 false ∧ InCode (guarded 1 9) ((outer 4).codeBase + 9) ∧
      InCode (guarded 0 9) ((outer 4).ip + 1 + (-5)) :=
  ⟨rfl, guard_true, guard_false, by unfold InCode; decide, by unfold InCode; decide⟩

theorem witness_GuardedConstantJumpsLandOrFallThrough :
    (guarded 1 9).stack = outer 4 :: [] ∧ Guard (guarded 1 9) (outer 4) 7 true ∧
      Guard (guarded 0 9) (outer 4) 7 false ∧ JumpConst (guarded 1 9) 0 9 ∧ JumpConst (guarded 0 9) 0 9 ∧
      InCode (guarded 1 9) ((outer 4).codeBase + 9) ∧
      InCode (guarded 1 4) ((outer 4).ip + 1 + 4) ∧ JumpConst (guarded 1 4) 0 4 :=
  ⟨rfl, guard_true, guard_false, jumpConst_guarded 1 9, jumpConst_guarded 0 9, by unfold InCode; decide,
    by unfold InCode; decide, jumpConst_guarded 1 4⟩

/-- The end of the store, index 10, and -1. -/
theorem witness_TakenJumpsOutOfRangeFault :
    (guarded 1 10).stack = outer 4 :: [] ∧ ¬InCode (guarded 1 10) ((outer 4).codeBase + 10) ∧
      ¬InCode (guarded 1 10) ((outer 4).ip + 1 + (-6)) ∧ ¬InCode (guarded 1 10) ((outer 4).ip + 1 + 5) ∧
      JumpConst (guarded 1 10) 0 10 ∧ JumpConst (guarded 1 5) 0 5 ∧ Guard (guarded 1 9) (outer 4) 7 true ∧
      Guard (guarded 0 9) (outer 4) 7 false :=
  ⟨rfl, by unfold InCode; decide, by unfold InCode; decide, by unfold InCode; decide, jumpConst_guarded 1 10,
    jumpConst_guarded 1 5, guard_true, guard_false⟩

/-- Register 8, constant 1 of a pool of one, an `Invalid` guard, an `Int` constant. -/
theorem witness_JumpOperandChecksComeInOrder :
    (guarded 1 9).stack = outer 4 :: [] ∧ (outer 4).size ≤ 8 ∧ (guarded 1 9).poolLen ≤ 1 ∧
      (0 < (outer 4).size ∧ ((guarded 1 9).slotAt ((outer 4).base + 0)).tag ≠ .int) ∧
      (about 0 [const .int 7] []).pool[0]? = some (const .int 7) ∧ (const .int 7).kind ≠ .jump := by
  decide

theorem witness_RJmpZeroFallsThroughExceptLast :
    (machine [0, 0, 0] [] [] [outer 1]).stack = outer 1 :: [] ∧
      (outer 1).ip + 1 < (machine [0, 0, 0] [] [] [outer 1]).codeLen ∧
      (outer 2).ip + 1 = (machine [0, 0, 0] [] [] [outer 2]).codeLen := by decide

/-- A window of 8 that fills the arena exactly, all of it arguments, from the last frame but one. -/
theorem witness_CallBuildsFrameAndWindow :
    let e := function 9 8 8
    let s : State := { about 0 [e] [] with maxDepth := 2 }
    s.stack = outer 4 :: [] ∧ 0 + 8 ≤ (outer 4).size ∧ s.pool[0]? = some e ∧ e.kind = .jump ∧
      InCode s e.value.toInt ∧ 8 ≤ e.window ∧ s.depth < s.maxDepth ∧
      (outer 4).base + (outer 4).size + e.window ≤ s.regfileSize := by
  unfold InCode
  decide

/-- Each test of `Call` in turn is the first to fail, for a call of `n` arguments from register `start`. -/
theorem witness_CallFaultsComeInOrder :
    let s := about 0 [const .int 1, function 10 2 1, function 6 2 1, function 6 9 0] []
    s.stack = outer 4 :: [] ∧ (0 < 2 ∧ (outer 4).size < 7 + 2) ∧ s.poolLen ≤ 4 ∧
      (s.pool[0]? = some (const .int 1) ∧ (const .int 1).kind ≠ .jump) ∧
      (s.pool[1]? = some (function 10 2 1) ∧ (s.codeLen : Int) ≤ (function 10 2 1).value.toInt) ∧
      (s.pool[2]? = some (function 6 2 1) ∧ (function 6 2 1).window < 3) ∧
      ({ s with maxDepth := 1 } : State).maxDepth ≤ s.depth ∧
      (s.pool[3]? = some (function 6 9 0) ∧ s.depth < s.maxDepth ∧
        s.regfileSize < (outer 4).base + (outer 4).size + (function 6 9 0).window) := by decide

/-- A called frame of two registers, over the outermost one. -/
def callee (nret retdst : Nat) : Frame :=
  { ip := 6, base := 8, size := 2, nret := nret, retdst := retdst, codeBase := 6 }

/-- C12: two values, into the last two registers of the caller. -/
theorem witness_RetCopiesValuesAndPops :
    let s := called 0x0000000000000251 6 2 6 []
    s.stack = callee 2 6 :: outer 5 :: [] ∧ (callee 2 6).base = (outer 5).base + (outer 5).size ∧
      (callee 2 6).base + (callee 2 6).size ≤ s.regfileSize ∧ 0 + 2 ≤ (callee 2 6).size ∧
      2 = (callee 2 6).nret ∧ (callee 2 6).retdst + 2 ≤ (outer 5).size := by decide

/-- C10, C9 and C11. -/
theorem witness_RetFaultsOnBadCounts :
    (called 0 6 1 0 []).stack = callee 1 0 :: outer 5 :: [] ∧ (callee 1 0).size < 2 + 1 ∧
      2 ≠ (callee 1 0).nret ∧ (called 0 6 2 7 []).stack = callee 2 7 :: outer 5 :: [] ∧
      (outer 5).size < (callee 2 7).retdst + 2 := by decide

theorem witness_OutermostRetEndsProgram :
    (about 0 [] []).stack = [outer 4] ∧ 7 + 1 ≤ (outer 4).size ∧ (outer 4).size < 8 + 1 := by decide

/-- `Call 1, r7, #0` at 0, and a callee of `Nop` and `Ret 1, r0`. -/
def callProgram : State :=
  machine [0x0000000007000150, 0, 0, 0x0000000000000151] [function 2 2 1]
    (List.replicate 7 .invalid ++ [.int 5]) [outer 0]

theorem witness_CallThenRetRestoresCaller :
    callProgram.run = .running ∧ StackInv callProgram ∧ callProgram.stack = outer 0 :: [] ∧
      callProgram.code[(outer 0).ip]? = some 0x0000000007000150 ∧
      decode 0x0000000007000150 = .ok (.call 1 7 0) ∧ step callProgram = .next (after callProgram) ∧
      (after callProgram).run = .running ∧
      ReachedFrom (after callProgram) 1 (after (after callProgram)) ∧
      (∀ m u, m ≤ 1 → ReachedFrom (after callProgram) m u → callProgram.depth < u.depth) ∧
      (after (after callProgram)).run = .running ∧
      (after (after callProgram)).depth = callProgram.depth + 1 ∧
      (after (after callProgram)).code[(after (after callProgram)).ip]? = some 0x0000000000000151 ∧
      decode 0x0000000000000151 = .ok (.ret 1 0) ∧
      step (after (after callProgram)) = .next (after (after (after callProgram))) ∧
      (after (after (after callProgram))).run = .running := by
  refine ⟨rfl, ⟨by decide, by decide, rfl, ?_, ?_, ?_⟩, rfl, by decide, by decide, rfl, rfl, rfl, ?_, rfl, rfl,
    by decide, by decide, rfl, rfl⟩
  · rintro f h; cases h; decide
  · intro f h; rw [List.mem_singleton.1 h]; decide
  · intro f h _; rw [List.mem_singleton.1 h]; decide
  · intro m u hm hu
    interval_cases m
    · cases (show Host.Outcome.next (after callProgram) = .next u from hu); decide
    · cases (show Host.Outcome.next (after (after callProgram)) = .next u from hu); decide

/-- C14 as the fault; it is also one its instruction's row of the table names. -/
theorem witness_FaultsArePrecise :
    let s := about 0x0000000008000151 [] []
    s.run = .running ∧ exec (.ret 1 8) s = .next (after s) ∧ (after s).run = .halted ∧
      (after s).result = .fault .indexFault 4 1 := ⟨rfl, rfl, rfl, rfl⟩

theorem witness_OnlyTabledFaultsAreRaised :
    exec (.div 1 2 3) (ints 5 0) = .next (raise .arithmeticFault (ints 5 0)) ∧
      (ints 5 0).run = .running ∧ (raise .arithmeticFault (ints 5 0)).run = .halted ∧
      (raise .arithmeticFault (ints 5 0)).result = .fault .arithmeticFault 4 1 := ⟨rfl, rfl, rfl, rfl⟩

/-- A step that writes a register: the witness of the statements about every step and every instruction. -/
theorem witness_UnitAndConfigurationNeverChange : step (ints 5 7) = .next (after (ints 5 7)) := rfl

theorem witness_OnlyPrintAppendsToLog :
    exec (.print 2) (ints 5 7) = .next ((ints 5 7).emit (.int 5)).advance := rfl

theorem witness_DefaultAdvanceByOneWord :
    transfersControl (.add 1 2 3) = false ∧ (ints 5 7).run = .running ∧
      exec (.add 1 2 3) (ints 5 7) = .next (after (ints 5 7)) ∧ (after (ints 5 7)).run = .running :=
  ⟨rfl, rfl, rfl, rfl⟩

theorem witness_OnlyActiveWindowIsWritten :
    (ints 5 7).stack = outer 4 :: [] ∧ (Instr.add 7 2 3).opcode ≠ 0x50 ∧ (Instr.add 7 2 3).opcode ≠ 0x51 ∧
      exec (.add 7 2 3) (ints 5 7) = .next ((ints 5 7).setSlot 7 (.int 12)).advance :=
  ⟨rfl, by decide, by decide, rfl⟩

theorem witness_RunsEndOnlyThreeWays :
    let s := about 0x0000000000000151 [] []
    s.run = .running ∧ step s = .next (after s) ∧ (after s).run = .halted := ⟨rfl, rfl, rfl⟩

theorem stackInv_about (w : Word) (a b c : Slot) : StackInv (about w [] (three a b c)) := by
  refine ⟨Nat.le_refl 1, by simp [State.depth, about, machine], rfl, ?_, ?_, ?_⟩
  · rintro f h
    cases h
    exact (active_about w [] a b c).fits
  · intro f h
    rw [List.mem_singleton.1 h]
    simp [State.codeLen, about, machine, tenWords, outer]
  · intro f h _
    rw [List.mem_singleton.1 h]
    simp [State.codeLen, about, machine, tenWords, outer, Frame.outermost]

theorem witness_StepKeepsStackInvariant :
    StackInv (ints 5 7) ∧ step (ints 5 7) = .next (after (ints 5 7)) := ⟨stackInv_about _ _ _ _, rfl⟩

theorem witness_StepKeepsVectorFree :
    VectorFree (ints 5 7) ∧ step (ints 5 7) = .next (after (ints 5 7)) := by
  refine ⟨⟨by decide, by decide, ?_⟩, rfl⟩
  intro vs h
  cases h
  decide

/-- A launch of `[Nop]` (R6) and the state after its one instruction. -/
theorem witness_ReachableStatesAreWellStacked :
    boot Config.standard [0] [] = some (State.fresh Config.standard [0] []) ∧
      ReachedFrom (State.fresh Config.standard [0] []) 1 (State.fresh Config.standard [0] []).advance ∧
      (State.fresh Config.standard [0] []).advance.run = .running := ⟨by decide, rfl, rfl⟩

/-- A launch, and a state outside every launch that does fetch an unassigned opcode. -/
theorem witness_LoadedUnitNeverRaisesDecodeFault :
    (boot Config.standard [0] [] = some (State.fresh Config.standard [0] []) ∧
      ReachedFrom (State.fresh Config.standard [0] []) 0 (State.fresh Config.standard [0] []) ∧
      (State.fresh Config.standard [0] []).run = .running ∧
      (State.fresh Config.standard [0] []).code[0]? = some 0) ∧
    (let s := about 0xFF [] []
     s.run = .running ∧ step s = .next (after s) ∧ (after s).run = .halted) :=
  ⟨⟨by decide, rfl, rfl, rfl⟩, rfl, rfl, rfl⟩

theorem witness_RunningStepHasNextState :
    (StackInv (ints 5 7) ∧ (ints 5 7).run = .running) ∧
      (boot Config.standard [0] [] = some (State.fresh Config.standard [0] []) ∧
        ReachedFrom (State.fresh Config.standard [0] []) 1 (State.fresh Config.standard [0] []).advance ∧
        (State.fresh Config.standard [0] []).advance.run = .running) :=
  ⟨⟨stackInv_about _ _ _ _, rfl⟩, by decide, rfl, rfl⟩

/-- Two states that differ in the last slot of the arena, above the active window. -/
theorem witness_StaleSlotsAreInvisible :
    StackInv (ints 5 7) ∧ AgreeInWindows (ints 5 7) ((ints 5 7).setSlot 15 (.int 1)) ∧
      (ints 5 7).rf ≠ ((ints 5 7).setSlot 15 (.int 1)).rf ∧ ReachedFrom (ints 5 7) 1 (after (ints 5 7)) := by
  refine ⟨stackInv_about _ _ _ _, ⟨⟨rfl, rfl, rfl, rfl, rfl⟩, rfl, ?_, rfl, rfl, rfl, rfl⟩, by decide, rfl⟩
  rintro f h k hk
  cases h
  exact State.slotAt_setSlot_other _ (by
    have : k < 8 := hk
    omega)

theorem witness_LabelOffsetsReachTheirLabel :
    (about 0 [] []).stack = outer 4 :: [] ∧ 9 < (about 0 [] []).codeLen := by decide

/-- `+inf` and the largest finite value, both infinities, F7's 1.0 over `+inf`, `-inf` over the least
subnormal. -/
theorem witness_InfiniteOperandsGiveInfinitiesOrZeros :
    (Active (floats 0x7FF0000000000000 0x7FEFFFFFFFFFFFFF) (outer 4) [] ∧ 7 < (outer 4).size ∧
      FloatSources (floats 0x7FF0000000000000 0x7FEFFFFFFFFFFFFF) (outer 4) 2 3 0x7FF0000000000000
        0x7FEFFFFFFFFFFFFF ∧
      f64IsInf 0x7FF0000000000000 = true ∧ f64IsNaN 0x7FEFFFFFFFFFFFFF = false ∧
      f64IsInf 0x7FEFFFFFFFFFFFFF = false) ∧
    (FloatSources (floats 0xFFF0000000000000 0xFFF0000000000000) (outer 4) 2 3 0xFFF0000000000000
        0xFFF0000000000000 ∧
      f64IsInf 0xFFF0000000000000 = true ∧ f64IsNaN 0xFFF0000000000000 = false) ∧
    (FloatSources (floats 0x3FF0000000000000 0x7FF0000000000000) (outer 4) 2 3 0x3FF0000000000000
        0x7FF0000000000000 ∧
      f64IsFinite 0x3FF0000000000000 = true) ∧
    (FloatSources (floats 0xFFF0000000000000 1) (outer 4) 2 3 0xFFF0000000000000 1 ∧
      f64IsFinite 1 = true ∧ f64IsZero 1 = false) :=
  ⟨⟨active_about _ _ _ _ _, by decide, floatSources _ _, by decide +kernel, by decide +kernel,
      by decide +kernel⟩,
    ⟨floatSources _ _, by decide +kernel, by decide +kernel⟩, ⟨floatSources _ _, by decide +kernel⟩,
    floatSources _ _, by decide +kernel, by decide +kernel⟩

end Sys2Proof.Tests
end

