-- ==== Sys2Proof/Proofs/State.lean ====
section
/-! PROOFS of the family 10_state.md: what every step keeps (unit and configuration, no vector slot), what an
instruction may write (print log, active window), that a running step has a next state, and that slots above
the active window are invisible. -/

namespace Sys2Proof.StateProofs

open Sys2Proof Sys2Proof.Machine Sys2Proof.Safety

variable {s s' t t' : State} {f : Frame} {callers : List Frame} {i : Instr}

/-! ## Runs -/

theorem reachedFrom_zero : ReachedFrom s 0 t ↔ s = t :=
  ⟨Host.Outcome.next.inj, congrArg _⟩

/-- A run of `n + 1` steps is one step and a run of `n`. -/
theorem reachedFrom_succ {n : Nat} : ReachedFrom s (n + 1) t ↔ ∃ u, step s = .next u ∧ ReachedFrom u n t := by
  have hcore : Host.Core.step core s = step s := rfl
  cases h : step s <;> simp [ReachedFrom, Host.Core.run, hcore, h]

/-- What every step keeps holds along every run. -/
theorem reachedFrom_induct {P : State → Prop} (hstep : ∀ s t, P s → step s = .next t → P t) {n : Nat}
    (hrun : ReachedFrom s n t) (hs : P s) : P t := by
  induction n generalizing s with
  | zero => exact reachedFrom_zero.1 hrun ▸ hs
  | succ n ih =>
    obtain ⟨u, hu, hrun⟩ := reachedFrom_succ.1 hrun
    exact ih hrun (hstep s u hs hu)

/-! ## What every step keeps, from what an instruction can do -/

/-- A fact about the state before and after a step holds of every step when it holds where nothing changes, at
each effect of an instruction, at the exhausted stream and at a taken fault. -/
theorem step_induct {R : State → State → Prop} (h : step s = .next t) (hrefl : R s s)
    (heff : ∀ t, Effect s t → R s t) (hend : R s (s.halt (.normal []))) : R s t := by
  obtain ⟨-, rfl⟩ | ⟨-, f, callers, hs, ⟨-, rfl⟩ | ⟨w, -, ⟨-, rfl⟩ | ⟨i, -, hi⟩⟩⟩ := step_next h
  · exact hrefl
  · exact hend
  · exact heff _ (.faulted f callers _ hs)
  · exact heff _ (exec_effect hi)

/-- Replacing slots, not their number, keeps unit and configuration. -/
theorem sameUnit_withRf {rf : List Slot} (h : rf.length = s.rf.length) : SameUnit s (s.withRf rf) :=
  ⟨rfl, rfl, rfl, rfl, h⟩

theorem effect_sameUnit (h : Effect s t) : SameUnit s t := by
  cases h with
  | wrote | wroteDrawing | called | returned => exact ⟨rfl, rfl, rfl, rfl, by simp [State.regfileSize]⟩
  | emitted | advanced | jumped | ended | faulted => exact ⟨rfl, rfl, rfl, rfl, rfl⟩

/-- Settles O47: every effect leaves unit and configuration alone, and rewrites slots without changing
their number. -/
theorem unitAndConfigurationNeverChange : Obligations.UnitAndConfigurationNeverChange := by
  intro s t h
  exact step_induct (R := SameUnit) h ⟨rfl, rfl, rfl, rfl, rfl⟩ (fun _ => effect_sameUnit)
    ⟨rfl, rfl, rfl, rfl, rfl⟩

/-! ## No vector slot -/

theorem ne_vec_of_tag {r : Slot} (h : r.tag = .int ∨ r.tag = .float) : r ≠ .vec := by
  rintro rfl
  simp [Slot.tag] at h

theorem getD_ne_vec {rf : List Slot} (h : Slot.vec ∉ rf) (k : Nat) : rf.getD k .invalid ≠ .vec := by
  rw [List.getD_eq_getElem?_getD]
  cases hk : rf[k]? with
  | none => simp
  | some v => rintro rfl; exact h (List.mem_of_getElem? hk)

theorem vec_notMem_set {rf : List Slot} {r : Slot} (h : Slot.vec ∉ rf) (hr : r ≠ .vec) (k : Nat) :
    Slot.vec ∉ rf.set k r :=
  fun hm => (List.mem_or_eq_of_mem_set hm).elim h hr.symm

theorem vec_notMem_clearSlots {rf : List Slot} (h : Slot.vec ∉ rf) (dst n : Nat) :
    Slot.vec ∉ clearSlots rf dst n := by
  induction n with
  | zero => exact h
  | succ n ih => exact vec_notMem_set ih (by simp) _

theorem vec_notMem_copySlots {rf : List Slot} (h : Slot.vec ∉ rf) (src dst n : Nat) :
    Slot.vec ∉ copySlots rf src dst n := by
  induction n with
  | zero => exact h
  | succ n ih => exact vec_notMem_set ih (getD_ne_vec ih _) _

theorem vec_notMem_slotsFrom (h : Slot.vec ∉ s.rf) (src n : Nat) : Slot.vec ∉ s.slotsFrom src n := by
  simp only [State.slotsFrom, List.mem_map, not_exists, not_and]
  exact fun k _ => getD_ne_vec h (src + k)

theorem effect_vectorFree (h : Effect s t) (hv : VectorFree s) : VectorFree t := by
  obtain ⟨hrf, hout, hres⟩ := hv
  cases h with
  | wrote f callers w r hs hw hr => exact ⟨vec_notMem_set hrf (ne_vec_of_tag hr) _, hout, hres⟩
  | wroteDrawing f callers w r hs hw hr => exact ⟨vec_notMem_set hrf (ne_vec_of_tag (.inr hr)) _, hout, hres⟩
  | emitted f callers j v hs hj hv ht =>
    exact ⟨hrf, by simpa [hout] using (ne_vec_of_tag ht).symm, hres⟩
  | advanced | jumped => exact ⟨hrf, hout, hres⟩
  | called => exact ⟨vec_notMem_copySlots (vec_notMem_clearSlots hrf _ _) _ _ _, hout, hres⟩
  | returned => exact ⟨vec_notMem_copySlots hrf _ _ _, hout, hres⟩
  | ended f n start => exact ⟨hrf, hout, by rintro vs ⟨⟩; exact vec_notMem_slotsFrom hrf _ _⟩
  | faulted => exact ⟨hrf, hout, by simp⟩

/-- Settles O55: a written or emitted slot is numeric, and the other moved slots are copies or `Invalid`. -/
theorem stepKeepsVectorFree : Obligations.StepKeepsVectorFree := by
  intro s t hv h
  exact step_induct (R := fun s t => VectorFree s → VectorFree t) h id (fun _ => effect_vectorFree)
    (fun ⟨hrf, hout, _⟩ => ⟨hrf, hout, by rintro vs ⟨⟩; simp⟩) hv

/-! ## What an instruction can do, by instruction -/

/-- What `i` can do when it answers a next state from the active frame `f`, with what `Effect` forgets: which
instructions write a register, which one prints. -/
inductive InstrEffect (s : State) (f : Frame) : Instr → State → Prop
  /-- Moved the instruction pointer alone, or took a fault. -/
  | moved {i : Instr} {t : State} (h : JumpAnswers s t) : InstrEffect s f i t
  /-- Wrote one register of the active window and advanced. -/
  | wrote {i : Instr} {w : Nat} {r : Slot} (hi : transfersControl i = false) (hw : w < f.size) :
      InstrEffect s f i (s.setSlot (f.base + w) r).advance
  /-- The same, with one NaN draw taken. -/
  | wroteDrawing {i : Instr} {w : Nat} {r : Slot} (hi : transfersControl i = false) (hw : w < f.size) :
      InstrEffect s f i (s.setSlot (f.base + w) r).nextDraw.advance
  /-- Printed a numeric register of the active window. -/
  | printed {reg : Nat} (hreg : reg < f.size)
      (ht : (s.slotAt (f.base + reg)).tag = .int ∨ (s.slotAt (f.base + reg)).tag = .float) :
      InstrEffect s f (.print reg) (s.emit (s.slotAt (f.base + reg))).advance
  /-- `Call` or `Ret`, which leave the print log alone. -/
  | framed {i : Instr} {t : State} (hi : i.opcode = 0x50 ∨ i.opcode = 0x51) (ho : t.out = s.out) :
      InstrEffect s f i t

theorem instrEffect_raise (k : FaultKind) : InstrEffect s f i (raise k s) := .moved (.inr (.inr ⟨k, rfl⟩))

theorem instrEffect_of_intBinary {w p q : Nat} {op : Payload → Payload → Except FaultKind Slot}
    (hi : transfersControl i = false) (hs : s.stack = f :: callers) (h : intBinary w p q op s = .next t) :
    InstrEffect s f i t := by
  obtain ⟨f', callers', hs', ⟨u, v, r, hw, -, -, -, -, -, rfl⟩ | ⟨k, rfl⟩⟩ := intBinary_next h
  · cases hs.symm.trans hs'
    exact .wrote hi hw
  · exact instrEffect_raise k

theorem instrEffect_of_floatBinary {w p q : Nat} {op : Payload → Payload → Except FaultKind Slot}
    {after : State → State} (hi : transfersControl i = false) (hs : s.stack = f :: callers)
    (hafter : after = id ∨ after = State.nextDraw) (h : floatBinary w p q op after s = .next t) :
    InstrEffect s f i t := by
  obtain ⟨f', callers', hs', ⟨u, v, r, hw, -, -, -, -, -, rfl⟩ | ⟨k, rfl⟩⟩ := floatBinary_next h
  · cases hs.symm.trans hs'
    obtain rfl | rfl := hafter
    · exact .wrote hi hw
    · exact .wroteDrawing hi hw
  · exact instrEffect_raise k

/-- Whatever next state `exec i` answers is one of the effects `i` may have. -/
theorem exec_instrEffect (hs : s.stack = f :: callers) (h : exec i s = .next t) : InstrEffect s f i t := by
  cases i with
  | nop => exact .moved (.inr (.inl (execNop_next h)))
  | print reg =>
    obtain ⟨f', callers', hs', ⟨v, hreg, rfl, ht, rfl⟩ | ⟨k, rfl⟩⟩ := execPrint_next h
    · cases hs.symm.trans hs'
      exact .printed hreg ht
    · exact instrEffect_raise k
  | load w index =>
    obtain ⟨f', callers', hs', ⟨e, v, hw, -, -, rfl⟩ | ⟨k, rfl⟩⟩ := execLoad_next h
    · cases hs.symm.trans hs'
      exact .wrote rfl hw
    · exact instrEffect_raise k
  | neg w p =>
    obtain ⟨f', callers', hs', ⟨u, hw, -, -, rfl⟩ | ⟨k, rfl⟩⟩ := execNeg_next h
    · cases hs.symm.trans hs'
      exact .wrote rfl hw
    · exact instrEffect_raise k
  | add | sub | mult | div | mod | lt => exact instrEffect_of_intBinary rfl hs h
  | fAdd | fDiv => exact instrEffect_of_floatBinary rfl hs (.inr rfl) h
  | fLt => exact instrEffect_of_floatBinary rfl hs (.inl rfl) h
  | jmp | rJmp => exact .moved (jumpTo_next h)
  | jmpT | jmpF | rJmpT | rJmpF => exact .moved (jumpToIf_next h)
  | jmpC | rJmpC => exact .moved (jumpConst_next h)
  | jmpTC | jmpFC | rJmpTC | rJmpFC => exact .moved (jumpConstIf_next h)
  | call n start func =>
    obtain ⟨-, -, -, ⟨e, -, -, -, -, -, -, -, -, rfl⟩ | ⟨k, rfl⟩⟩ := execCall_next h
    · exact .framed (.inl rfl) rfl
    · exact instrEffect_raise k
  | ret n start =>
    obtain ⟨-, -, -, ⟨-, -, rfl⟩ | ⟨c, rest, -, -, -, -, rfl⟩ | ⟨k, rfl⟩⟩ := execRet_next h
    · exact .framed (.inr rfl) rfl
    · exact .framed (.inr rfl) rfl
    · exact instrEffect_raise k

theorem jumpAnswers_frame (h : JumpAnswers s t) : t.out = s.out ∧ t.rf = s.rf := by
  obtain ⟨n, -, rfl⟩ | rfl | ⟨k, rfl⟩ := h <;> exact ⟨rfl, rfl⟩

/-- Settles O48: of an instruction's effects only printing touches the log. -/
theorem onlyPrintAppendsToLog : Obligations.OnlyPrintAppendsToLog := by
  intro i s t h
  obtain ⟨f, callers, hs⟩ := stack_of_exec h
  cases exec_instrEffect hs h with
  | moved h => exact .inl (jumpAnswers_frame h).1
  | wrote | wroteDrawing => exact .inl rfl
  | printed hreg ht => exact .inr ⟨_, f, callers, _, rfl, hs, hreg, rfl, ht, rfl⟩
  | framed hi ho => exact .inl ho

/-- Settles O50: an instruction's only effect on the arena, `Call` and `Ret` apart, is one register write. -/
theorem onlyActiveWindowIsWritten : Obligations.OnlyActiveWindowIsWritten := by
  intro i s t f callers hs hcall hret h
  cases exec_instrEffect hs h with
  | moved h => exact .inl (jumpAnswers_frame h).2
  | wrote hi hw | wroteDrawing hi hw => exact .inr ⟨hi, _, _, hw, rfl⟩
  | printed => exact .inl rfl
  | framed hi => exact absurd hi (not_or.2 ⟨hcall, hret⟩)

/-! ## A running step has a next state -/

theorem attempt_of_active (rule : Frame → List Frame → Except FaultKind State) (hs : s.stack = f :: callers) :
    ∃ t, attempt s rule = .next t := by
  rw [attempt_of_stack hs]
  cases rule f callers <;> exact ⟨_, rfl⟩

/-- Every instruction is an attempted rule, so with an active frame it answers a next state. -/
theorem exec_of_active (i : Instr) (hs : s.stack = f :: callers) : ∃ t, exec i s = .next t := by
  cases i <;> simp only [exec] <;> exact attempt_of_active _ hs

theorem step_of_active (hr : s.run = .running) (hs : s.stack = f :: callers) : ∃ t, step s = .next t := by
  rw [step_of_running hr, stepRunning, hs]
  cases s.fetch with
  | none => exact ⟨_, rfl⟩
  | some w =>
    simp only [dispatch]
    cases decode w with
    | error e => exact ⟨_, rfl⟩
    | ok i => exact exec_of_active i hs

/-- A running machine has an active frame (10_state.md R30). -/
def ActiveWhileRunning (s : State) : Prop := s.run = .running → s.stack ≠ []

theorem step_of_activeWhileRunning (h : ActiveWhileRunning s) (hr : s.run = .running) :
    ∃ t, step s = .next t := by
  obtain ⟨f, callers, hs⟩ := List.exists_cons_of_ne_nil (h hr)
  exact step_of_active hr hs

theorem effect_stack_ne_nil (h : Effect s t) : t.stack ≠ [] := by
  cases h with
  | wrote _ _ _ _ hs | wroteDrawing _ _ _ _ hs | emitted _ _ _ _ hs | advanced _ _ hs | jumped _ _ _ hs
  | called _ _ _ _ _ _ hs | returned _ _ _ _ _ hs | ended _ _ _ hs | faulted _ _ _ hs => simp [hs]

theorem step_activeWhileRunning (hs : ActiveWhileRunning s) (h : step s = .next t) : ActiveWhileRunning t :=
  step_induct (R := fun s t => ActiveWhileRunning s → ActiveWhileRunning t) h id
    (fun _ he _ _ => effect_stack_ne_nil he) (fun _ hr => by simp at hr) hs

theorem boot_activeWhileRunning {cfg : Config} {code : List Word} {pool : List Const}
    (h : boot cfg code pool = some s) : ActiveWhileRunning s := by
  unfold boot at h
  split at h
  · split at h <;> cases h
    · intro hr
      simp [State.loadFailed] at hr
    · intro _
      simp [State.fresh]
  · cases h

/-- Settles O57: a running step can only stop for want of a frame, and a launch gives a machine that has one
while it runs. -/
theorem runningStepHasNextState : Obligations.RunningStepHasNextState := by
  refine ⟨fun s hinv hr => ?_, fun cfg code pool s0 s n hboot hrun hr => ?_⟩
  · refine step_of_activeWhileRunning (fun _ hs => ?_) hr
    simpa [State.depth, hs] using hinv.nonempty
  · exact step_of_activeWhileRunning
      (reachedFrom_induct (fun _ _ => step_activeWhileRunning) hrun (boot_activeWhileRunning hboot)) hr

/-! ## Windows stay chained -/

theorem chained_setTopIp {fs : List Frame} {n : Nat} : Chained (setTopIp fs n) ↔ Chained fs := by
  match fs with
  | [] => rfl
  | [f] => rfl
  | f :: c :: rest => rfl

theorem effect_chained (h : Effect s t) (hc : Chained s.stack) : Chained t.stack := by
  cases h with
  | wrote | wroteDrawing | emitted | advanced | jumped => exact chained_setTopIp.2 hc
  | called f callers n start func e hs =>
    simp only [State.push_stack, State.advance_stack, State.withRf_stack, hs, setTopIp_cons]
    exact ⟨rfl, (chained_setTopIp (fs := f :: callers)).2 (hs ▸ hc)⟩
  | returned f c rest n start hs =>
    rw [hs] at hc
    simpa [hs] using hc.2
  | ended | faulted => exact hc

theorem step_chained (hc : Chained s.stack) (h : step s = .next t) : Chained t.stack :=
  step_induct (R := fun s t => Chained s.stack → Chained t.stack) h id (fun _ => effect_chained) id hc

/-! ## Slots above the active window: what the operands see -/

section Agree

variable (ha : AgreeInWindows s s')
include ha

theorem agree_codeLen : s'.codeLen = s.codeLen := by rw [State.codeLen, ha.unit.code, State.codeLen]

theorem agree_ip : s'.ip = s.ip := by rw [State.ip, ha.stack, State.ip]

theorem agree_depth : s'.depth = s.depth := by rw [State.depth, ha.stack, State.depth]

theorem agree_orDrawnNaN (r : Option Payload) : s'.orDrawnNaN r = s.orDrawnNaN r := by
  simp only [State.orDrawnNaN, State.drawnNaN, ha.draws]

theorem agree_readConst (j : Nat) : readConst s' j = readConst s j := by
  simp only [readConst, ha.unit.pool]

theorem agree_slotAt (hs : s.stack = f :: callers) {k : Nat} (hk : k < f.base + f.size) :
    s'.slotAt k = s.slotAt k :=
  ha.slots f (by rw [hs]; rfl) k hk

theorem agree_readReg (hs : s.stack = f :: callers) (i : Nat) : readReg s' f i = readReg s f i := by
  by_cases hi : i < f.size
  · rw [readReg_ok.2 ⟨hi, rfl⟩, readReg_ok.2 ⟨hi, rfl⟩, agree_slotAt ha hs (by omega)]
  · rw [readReg_error.2 ⟨by omega, rfl⟩, readReg_error.2 ⟨by omega, rfl⟩]

theorem agree_readInt (hs : s.stack = f :: callers) (i : Nat) : readInt s' f i = readInt s f i := by
  simp only [readInt, agree_readReg ha hs]

theorem agree_readFloat (hs : s.stack = f :: callers) (i : Nat) :
    readFloat s' f i = readFloat s f i := by
  simp only [readFloat, agree_readReg ha hs]

theorem agree_readPrintable (hs : s.stack = f :: callers) (i : Nat) :
    readPrintable s' f i = readPrintable s f i := by
  simp only [readPrintable, agree_readReg ha hs]

theorem agree_truth (hs : s.stack = f :: callers) (i : Nat) : truth s' f i = truth s f i := by
  simp only [truth, agree_readInt ha hs]

/-! ## Slots above the active window: updates keep the agreement -/

/-- Two states of one unit have one unit still after updates that leave it alone. -/
theorem agree_unit (h : SameUnit s t) (h' : SameUnit s' t') : SameUnit t t' :=
  ⟨h'.code.trans (ha.unit.code.trans h.code.symm), h'.pool.trans (ha.unit.pool.trans h.pool.symm),
    h'.maxDepth.trans (ha.unit.maxDepth.trans h.maxDepth.symm),
    h'.entryWindow.trans (ha.unit.entryWindow.trans h.entryWindow.symm),
    h'.regfileSize.trans (ha.unit.regfileSize.trans h.regfileSize.symm)⟩

theorem agree_setSlot (k : Nat) (r : Slot) : AgreeInWindows (s.setSlot k r) (s'.setSlot k r) := by
  refine ⟨agree_unit ha (sameUnit_withRf (by simp)) (sameUnit_withRf (by simp)), ha.stack,
    fun f hf j hj => ?_, ha.run, ha.result, ha.out, ha.draws⟩
  have hlen : s'.rf.length = s.rf.length := ha.unit.regfileSize
  have hold : s'.rf.getD j .invalid = s.rf.getD j .invalid := ha.slots f hf j hj
  simp only [State.slotAt, State.setSlot_rf, getD_set_slot, hlen, hold]

theorem agree_setIp (n : Nat) : AgreeInWindows (s.setIp n) (s'.setIp n) := by
  refine ⟨agree_unit ha ⟨rfl, rfl, rfl, rfl, rfl⟩ ⟨rfl, rfl, rfl, rfl, rfl⟩, by simp [ha.stack],
    fun g hg k hk => ?_, ha.run, ha.result, ha.out, ha.draws⟩
  cases hs : s.stack with
  | nil => simp [hs] at hg
  | cons f callers =>
    simp only [State.setIp_stack, hs, setTopIp_cons, List.head?_cons, Option.some.injEq] at hg
    subst hg
    exact agree_slotAt ha hs hk

theorem agree_advance : AgreeInWindows s.advance s'.advance := by
  rw [State.advance, State.advance, agree_ip ha]
  exact agree_setIp ha _

theorem agree_emit (v : Slot) : AgreeInWindows (s.emit v) (s'.emit v) :=
  ⟨agree_unit ha ⟨rfl, rfl, rfl, rfl, rfl⟩ ⟨rfl, rfl, rfl, rfl, rfl⟩, ha.stack, ha.slots,
    ha.run, ha.result, by simp [ha.out], ha.draws⟩

theorem agree_nextDraw : AgreeInWindows s.nextDraw s'.nextDraw :=
  ⟨agree_unit ha ⟨rfl, rfl, rfl, rfl, rfl⟩ ⟨rfl, rfl, rfl, rfl, rfl⟩, ha.stack, ha.slots,
    ha.run, ha.result, ha.out, by simp [ha.draws]⟩

theorem agree_halt (r : Completion) : AgreeInWindows (s.halt r) (s'.halt r) :=
  ⟨agree_unit ha ⟨rfl, rfl, rfl, rfl, rfl⟩ ⟨rfl, rfl, rfl, rfl, rfl⟩, ha.stack, ha.slots,
    rfl, rfl, ha.out, ha.draws⟩

theorem agree_raise (k : FaultKind) : AgreeInWindows (raise k s) (raise k s') := by
  rw [raise, raise, agree_ip ha, agree_depth ha]
  exact agree_halt ha _

/-- Replacing arena and stack keeps the agreement when the new arenas agree below the end of the new active
window. -/
theorem agree_replaced {rf rf' : List Slot} {fs : List Frame} (hlen : rf.length = s.rf.length)
    (hlen' : rf'.length = s'.rf.length)
    (hslots : ∀ g, fs.head? = some g → ∀ k, k < g.base + g.size → rf'.getD k .invalid = rf.getD k .invalid) :
    AgreeInWindows ((s.withRf rf).withStack fs) ((s'.withRf rf').withStack fs) :=
  have hunit := agree_unit ha (sameUnit_withRf hlen) (sameUnit_withRf hlen')
  ⟨⟨hunit.code, hunit.pool, hunit.maxDepth, hunit.entryWindow, hunit.regfileSize⟩, rfl, hslots, ha.run,
    ha.result, ha.out, ha.draws⟩

end Agree

/-! ## Two rules in lockstep -/

/-- Two attempted rules both succeed, with states that agree in their windows, or raise the same fault. -/
inductive SameAnswer : Except FaultKind State → Except FaultKind State → Prop
  | ok {t t' : State} (h : AgreeInWindows t t') : SameAnswer (.ok t) (.ok t')
  | error (k : FaultKind) : SameAnswer (.error k) (.error k)

/-- After the same read or check, two rules answer alike if their continuations do. -/
theorem SameAnswer.bind {α : Type} {x : Except FaultKind α} {g g' : α → Except FaultKind State}
    (h : ∀ a, x = .ok a → SameAnswer (g a) (g' a)) : SameAnswer (x >>= g) (x >>= g') := by
  cases x with
  | error k => exact .error k
  | ok a => exact h a rfl

theorem sameAnswer_writeReg_advance (ha : AgreeInWindows s s') (w : Nat) (r : Slot) {after : State → State}
    (hafter : ∀ {u u'}, AgreeInWindows u u' → AgreeInWindows (after u) (after u')) :
    SameAnswer (writeReg s f w r >>= fun t => pure (after t).advance)
      (writeReg s' f w r >>= fun t => pure (after t).advance) := by
  by_cases hw : w < f.size
  · rw [writeReg_ok.2 ⟨hw, rfl⟩, writeReg_ok.2 ⟨hw, rfl⟩]
    exact .ok (agree_advance (hafter (agree_setSlot ha _ _)))
  · rw [writeReg_error.2 ⟨by omega, rfl⟩, writeReg_error.2 ⟨by omega, rfl⟩]
    exact .error _

theorem sameAnswer_land (ha : AgreeInWindows s s') (z : Int) : SameAnswer (land s z) (land s' z) := by
  simp only [land, agree_codeLen ha]
  exact .bind fun _ _ => .ok (agree_setIp ha _)

theorem sameAnswer_landIf (ha : AgreeInWindows s s') (taken : Bool) (z : Int) :
    SameAnswer (landIf s taken z) (landIf s' taken z) := by
  cases taken with
  | true => exact sameAnswer_land ha z
  | false => exact .ok (agree_advance ha)

/-- Two steps both answer a next state, and the two agree in their windows. -/
def Lockstep (o o' : Host.Outcome State Fault Refusal) : Prop :=
  ∃ t t', o = .next t ∧ o' = .next t' ∧ AgreeInWindows t t'

theorem lockstep_attempt {rule rule' : Frame → List Frame → Except FaultKind State} (ha : AgreeInWindows s s')
    (hs : s.stack = f :: callers) (h : SameAnswer (rule f callers) (rule' f callers)) :
    Lockstep (attempt s rule) (attempt s' rule') := by
  rw [attempt_of_stack hs, attempt_of_stack (ha.stack.trans hs)]
  generalize rule f callers = x, rule' f callers = x' at h
  cases h with
  | ok h => exact ⟨_, _, rfl, rfl, h⟩
  | error k => exact ⟨_, _, rfl, rfl, agree_raise ha k⟩

/-! ## The shared rules in lockstep -/

theorem lockstep_intBinary (ha : AgreeInWindows s s') (hs : s.stack = f :: callers) {w p q : Nat}
    {op : Payload → Payload → Except FaultKind Slot} :
    Lockstep (intBinary w p q op s) (intBinary w p q op s') := by
  refine lockstep_attempt ha hs ?_
  simp only [agree_readInt ha hs]
  exact .bind fun _ _ => .bind fun _ _ => .bind fun _ _ => .bind fun _ _ => .bind fun _ _ => .bind fun r _ =>
    sameAnswer_writeReg_advance ha w r id

theorem lockstep_floatBinary (ha : AgreeInWindows s s') (hs : s.stack = f :: callers) {w p q : Nat}
    {op : Payload → Payload → Except FaultKind Slot} {after : State → State}
    (hafter : ∀ {u u'}, AgreeInWindows u u' → AgreeInWindows (after u) (after u')) :
    Lockstep (floatBinary w p q op after s) (floatBinary w p q op after s') := by
  refine lockstep_attempt ha hs ?_
  simp only [agree_readFloat ha hs]
  exact .bind fun _ _ => .bind fun _ _ => .bind fun _ _ => .bind fun _ _ => .bind fun _ _ => .bind fun r _ =>
    sameAnswer_writeReg_advance ha w r hafter

theorem lockstep_jumpTo (ha : AgreeInWindows s s') (hs : s.stack = f :: callers) {target : Frame → Int} :
    Lockstep (jumpTo target s) (jumpTo target s') :=
  lockstep_attempt ha hs (sameAnswer_land ha _)

theorem lockstep_jumpToIf (ha : AgreeInWindows s s') (hs : s.stack = f :: callers) {reg : Nat} {when : Bool}
    {target : Frame → Int} : Lockstep (jumpToIf reg when target s) (jumpToIf reg when target s') := by
  refine lockstep_attempt ha hs ?_
  simp only [agree_truth ha hs]
  exact .bind fun _ _ => sameAnswer_landIf ha _ _

theorem lockstep_jumpConst (ha : AgreeInWindows s s') (hs : s.stack = f :: callers) {index : Nat}
    {target : Frame → Int → Int} : Lockstep (jumpConst index target s) (jumpConst index target s') := by
  refine lockstep_attempt ha hs ?_
  simp only [agree_readConst ha]
  exact .bind fun _ _ => .bind fun _ _ => sameAnswer_land ha _

theorem lockstep_jumpConstIf (ha : AgreeInWindows s s') (hs : s.stack = f :: callers) {reg index : Nat}
    {when : Bool} {target : Frame → Int → Int} :
    Lockstep (jumpConstIf reg index when target s) (jumpConstIf reg index when target s') := by
  refine lockstep_attempt ha hs ?_
  simp only [agree_readConst ha, agree_truth ha hs]
  exact .bind fun _ _ => .bind fun _ _ => .bind fun _ _ => .bind fun _ _ => sameAnswer_landIf ha _ _

theorem lockstep_execNop (ha : AgreeInWindows s s') (hs : s.stack = f :: callers) :
    Lockstep (execNop s) (execNop s') :=
  lockstep_attempt ha hs (.ok (agree_advance ha))

theorem lockstep_execPrint (ha : AgreeInWindows s s') (hs : s.stack = f :: callers) (reg : Nat) :
    Lockstep (execPrint reg s) (execPrint reg s') := by
  refine lockstep_attempt ha hs ?_
  simp only [agree_readPrintable ha hs]
  exact .bind fun v _ => .ok (agree_advance (agree_emit ha v))

theorem lockstep_execLoad (ha : AgreeInWindows s s') (hs : s.stack = f :: callers) (w index : Nat) :
    Lockstep (execLoad w index s) (execLoad w index s') := by
  refine lockstep_attempt ha hs ?_
  simp only [agree_readConst ha]
  exact .bind fun _ _ => .bind fun _ _ => .bind fun v _ => sameAnswer_writeReg_advance ha w v id

theorem lockstep_execNeg (ha : AgreeInWindows s s') (hs : s.stack = f :: callers) (w p : Nat) :
    Lockstep (execNeg w p s) (execNeg w p s') := by
  refine lockstep_attempt ha hs ?_
  simp only [agree_readInt ha hs]
  exact .bind fun _ _ => .bind fun _ _ => .bind fun _ _ => sameAnswer_writeReg_advance ha w _ id

/-! ## Call and Ret in lockstep -/

/-- A copy reads its source run only, so arenas that agree below `m`, a source of any length lying there, agree
below `m` after it. -/
theorem copySlots_agree {rf rf' : List Slot} {src n m : Nat} (dst : Nat) (hlen : rf'.length = rf.length)
    (hsrc : 0 < n → src + n ≤ m) (h : ∀ k, k < m → rf'.getD k .invalid = rf.getD k .invalid) :
    ∀ k, k < m → (copySlots rf' src dst n).getD k .invalid = (copySlots rf src dst n).getD k .invalid := by
  induction n with
  | zero => exact h
  | succ n ih =>
    have hsrc := hsrc (by omega)
    have ih := ih (by omega)
    intro k hk
    simp only [copySlots, getD_set_slot, copySlots_length, hlen, ih k hk, ih (src + n) (by omega)]

/-- Clearing the slots from `dst` on extends the agreement below `dst` over them. -/
theorem clearSlots_agree {rf rf' : List Slot} {dst n : Nat}
    (h : ∀ k, k < dst → rf'.getD k .invalid = rf.getD k .invalid) :
    ∀ k, k < dst + n → (clearSlots rf' dst n).getD k .invalid = (clearSlots rf dst n).getD k .invalid := by
  intro k hk
  rw [clearSlots_getD, clearSlots_getD]
  by_cases hc : dst ≤ k
  · rw [if_pos ⟨hc, hk⟩, if_pos ⟨hc, hk⟩]
  · rw [if_neg (by omega), if_neg (by omega), h k (by omega)]

/-- The state `Call` leaves, as one replacement of arena and stack. -/
theorem call_update (rf : List Slot) (g : Frame) : ((s.withRf rf).advance).push g =
    (s.withRf rf).withStack (g :: setTopIp s.stack (s.ip + 1)) := rfl

theorem lockstep_execCall (ha : AgreeInWindows s s') (hs : s.stack = f :: callers) (n start func : Nat) :
    Lockstep (execCall n start func s) (execCall n start func s') := by
  have hlen : s'.rf.length = s.rf.length := ha.unit.regfileSize
  refine lockstep_attempt ha hs ?_
  simp only [agree_readConst ha, agree_codeLen ha, agree_depth ha, ha.unit.maxDepth, ha.unit.regfileSize]
  refine .bind fun _ hargs => .bind fun e _ => .bind fun v _ => .bind fun _ _ => .bind fun _ hn =>
    .bind fun _ _ => .bind fun _ _ => .ok ?_
  have hargs := raiseIf_ok.1 hargs
  have hn := raiseIf_ok.1 hn
  have hcleared := clearSlots_agree (n := e.window) fun k hk => agree_slotAt ha hs (k := k) hk
  have hpassed := copySlots_agree (n := n) (src := f.base + start) (f.base + f.size) (by simpa using hlen)
    (by omega) hcleared
  rw [call_update, call_update, ha.stack, agree_ip ha]
  refine agree_replaced ha (by simp) (by simp) ?_
  rintro g ⟨⟩
  exact hpassed

theorem sameAnswer_endProgram (ha : AgreeInWindows s s') (hs : s.stack = f :: callers) (n start : Nat) :
    SameAnswer (endProgram n start s f) (endProgram n start s' f) := by
  refine .bind fun _ hsrc => ?_
  have hsrc := raiseIf_ok.1 hsrc
  have hvalues : s'.slotsFrom (f.base + start) n = s.slotsFrom (f.base + start) n :=
    List.map_congr_left fun k hk => agree_slotAt ha hs (by have := List.mem_range.1 hk; omega)
  rw [hvalues]
  exact .ok (agree_halt ha _)

/-- The caller's window ends where the callee's begins, so the values returned come from, and the window
uncovered lies in, what the two arenas agree on. -/
theorem sameAnswer_returnTo {c : Frame} {rest : List Frame} (ha : AgreeInWindows s s')
    (hs : s.stack = f :: c :: rest) (hc : f.base = c.base + c.size) (n start : Nat) :
    SameAnswer (returnTo n start s f c) (returnTo n start s' f c) := by
  have hlen : s'.rf.length = s.rf.length := ha.unit.regfileSize
  refine .bind fun _ hsrc => .bind fun _ _ => .bind fun _ _ => .ok ?_
  have hsrc := raiseIf_ok.1 hsrc
  have hcopied := copySlots_agree (n := n) (src := f.base + start) (c.base + f.retdst) hlen (by omega)
    fun k hk => agree_slotAt ha hs (k := k) hk
  rw [State.pop, State.pop, State.withRf_stack, State.withRf_stack, ha.stack, hs]
  refine agree_replaced ha (by simp) (by simp) ?_
  rintro g ⟨⟩ k hk
  exact hcopied k (by omega)

theorem lockstep_execRet (ha : AgreeInWindows s s') (hs : s.stack = f :: callers) (hc : Chained s.stack)
    (n start : Nat) : Lockstep (execRet n start s) (execRet n start s') := by
  refine lockstep_attempt ha hs ?_
  cases callers with
  | nil => exact sameAnswer_endProgram ha hs n start
  | cons c rest =>
    rw [hs] at hc
    exact sameAnswer_returnTo ha hs hc.1 n start

/-! ## Steps and runs in lockstep -/

theorem lockstep_exec (ha : AgreeInWindows s s') (hs : s.stack = f :: callers) (hc : Chained s.stack)
    (i : Instr) : Lockstep (exec i s) (exec i s') := by
  cases i with
  | nop => exact lockstep_execNop ha hs
  | print reg => exact lockstep_execPrint ha hs reg
  | load w index => exact lockstep_execLoad ha hs w index
  | neg w p => exact lockstep_execNeg ha hs w p
  | add | sub | mult | div | mod | lt => exact lockstep_intBinary ha hs
  | fAdd | fDiv =>
    simp only [exec, execFAdd, execFDiv, agree_orDrawnNaN ha]
    exact lockstep_floatBinary ha hs agree_nextDraw
  | fLt => exact lockstep_floatBinary ha hs id
  | jmp | rJmp => exact lockstep_jumpTo ha hs
  | jmpT | jmpF | rJmpT | rJmpF => exact lockstep_jumpToIf ha hs
  | jmpC | rJmpC => exact lockstep_jumpConst ha hs
  | jmpTC | jmpFC | rJmpTC | rJmpFC => exact lockstep_jumpConstIf ha hs
  | call n start func => exact lockstep_execCall ha hs n start func
  | ret n start => exact lockstep_execRet ha hs hc n start

theorem lockstep_stepRunning (ha : AgreeInWindows s s') (hs : s.stack = f :: callers) (hc : Chained s.stack) :
    Lockstep (stepRunning s) (stepRunning s') := by
  have hf : s'.fetch = s.fetch := by rw [State.fetch, ha.unit.code, agree_ip ha, State.fetch]
  rw [stepRunning, stepRunning, ha.stack, hs, hf]
  cases s.fetch with
  | none => exact ⟨_, _, rfl, rfl, agree_halt ha _⟩
  | some w =>
    simp only [dispatch]
    cases decode w with
    | error e => exact ⟨_, _, rfl, rfl, agree_raise ha _⟩
    | ok i => exact lockstep_exec ha hs hc i

/-- A step keeps the agreement: what differs above the active window stays there. -/
theorem step_agree (ha : AgreeInWindows s s') (hc : Chained s.stack) (h : step s = .next t) :
    ∃ t', step s' = .next t' ∧ AgreeInWindows t t' := by
  cases hr : s.run with
  | halted =>
    rw [step_of_halted hr] at h
    cases h
    exact ⟨s', step_of_halted (ha.run.trans hr), ha⟩
  | running =>
    rw [step_of_running hr] at h
    rw [step_of_running (ha.run.trans hr)]
    cases hs : s.stack with
    | nil => simp [stepRunning, hs] at h
    | cons f callers =>
      obtain ⟨u, t', hu, ht', hagree⟩ := lockstep_stepRunning ha hs hc
      cases h.symm.trans hu
      exact ⟨t', ht', hagree⟩

theorem run_agree {n : Nat} (ha : AgreeInWindows s s') (hc : Chained s.stack) (h : ReachedFrom s n t) :
    ∃ t', ReachedFrom s' n t' ∧ AgreeInWindows t t' := by
  induction n generalizing s s' with
  | zero => exact ⟨s', reachedFrom_zero.2 rfl, reachedFrom_zero.1 h ▸ ha⟩
  | succ n ih =>
    obtain ⟨u, hu, hrun⟩ := reachedFrom_succ.1 h
    obtain ⟨u', hu', hagree⟩ := step_agree ha hc hu
    obtain ⟨t', ht', hfinal⟩ := ih hagree (step_chained hc hu) hrun
    exact ⟨t', reachedFrom_succ.2 ⟨u', hu', ht'⟩, hfinal⟩

/-- Settles O58, by a simulation: the two runs go in lockstep, and their states agree in the windows. -/
theorem staleSlotsAreInvisible : Obligations.StaleSlotsAreInvisible := by
  intro s s' t n hinv ha h
  obtain ⟨t', ht', hagree⟩ := run_agree ha hinv.chained h
  exact ⟨t', ht', hagree.run, hagree.result, hagree.out, hagree.stack, hagree.slots⟩

end Sys2Proof.StateProofs
end

/-! PROOFS of the family 20_memory.md: the byte order of a unit held as bytes. -/

namespace Sys2Proof.MemoryProofs

open Sys2Proof

variable {w : Word} {k : Nat}

/-! ## The bytes of one word -/

@[simp] theorem length_bytesOfWord (w : Word) : (bytesOfWord w).length = 8 := by
  simp [bytesOfWord]

/-- An 8-bit field as a byte is the word's bit range. -/
theorem ofNat_bitsOf_byte (w : Word) (k : Nat) :
    BitVec.ofNat 8 (bitsOf w (8 * k + 7) (8 * k)) = w.extractLsb' (8 * k) 8 := by
  have hwidth : 8 * k + 7 + 1 - 8 * k = 8 := by omega
  apply BitVec.eq_of_toNat_eq
  rw [BitVec.toNat_ofNat, bitsOf, hwidth, Nat.mod_mod, BitVec.extractLsb'_toNat, Nat.shiftRight_eq_div_pow]

theorem getElem?_bytesOfWord (hk : k < 8) : (bytesOfWord w)[k]? = some (w.extractLsb' (8 * k) 8) := by
  rw [bytesOfWord, List.getElem?_map, List.getElem?_range hk, Option.map_some, ofNat_bitsOf_byte]

/-! ## Reading a word back from its bytes -/

/-- A byte put after others stands above them. -/
theorem natOfBytes_concat (bs : List Byte) (b : Byte) :
    natOfBytes (bs ++ [b]) = natOfBytes bs + 2 ^ (8 * bs.length) * b.toNat := by
  induction bs with
  | nil => simp [natOfBytes]
  | cons c bs ih =>
    rw [List.cons_append, natOfBytes, natOfBytes, ih, List.length_cons]
    ring

/-- The `n` lowest bytes of a word make its `8n` lowest bits. -/
theorem natOfBytes_lowBytes (w : Word) (n : Nat) :
    natOfBytes ((List.range n).map fun k => BitVec.ofNat 8 (bitsOf w (8 * k + 7) (8 * k))) =
      w.toNat % 2 ^ (8 * n) := by
  induction n with
  | zero => simp [natOfBytes, Nat.mod_one]
  | succ n ih =>
    rw [List.range_succ, List.map_append, List.map_singleton, natOfBytes_concat, ih, List.length_map,
      List.length_range, ofNat_bitsOf_byte, BitVec.extractLsb'_toNat, Nat.shiftRight_eq_div_pow, Nat.mul_succ,
      Nat.pow_add, Nat.mod_mul]

theorem natOfBytes_bytesOfWord (w : Word) : natOfBytes (bytesOfWord w) = w.toNat := by
  rw [bytesOfWord, natOfBytes_lowBytes, Nat.mod_eq_of_lt w.isLt]

theorem wordOfBytes_bytesOfWord_append (w : Word) (bs : List Byte) :
    wordOfBytes (bytesOfWord w ++ bs) = .ok (w, bs) := by
  have htake : (bytesOfWord w ++ bs).take 8 = bytesOfWord w := List.take_left' (length_bytesOfWord w)
  have hdrop : (bytesOfWord w ++ bs).drop 8 = bs := List.drop_left' (length_bytesOfWord w)
  rw [wordOfBytes, htake, hdrop, if_pos (length_bytesOfWord w), natOfBytes_bytesOfWord, BitVec.ofNat_toNat,
    BitVec.setWidth_eq]

/-! ## The bytes of a unit -/

/-- Every word before word `a` takes 8 bytes, so its bytes begin at `8a`. -/
theorem getElem?_flatMap_bytesOfWord {ws : List Word} {a : Nat} (hw : ws[a]? = some w) (hk : k < 8) :
    (ws.flatMap bytesOfWord)[8 * a + k]? = some (w.extractLsb' (8 * k) 8) := by
  induction ws generalizing a with
  | nil => simp at hw
  | cons v ws ih =>
    rw [List.flatMap_cons]
    cases a with
    | zero =>
      obtain rfl : v = w := by simpa using hw
      rw [Nat.mul_zero, Nat.zero_add, List.getElem?_append_left (by simpa using hk), getElem?_bytesOfWord hk]
    | succ a =>
      have hskip : 8 * (a + 1) + k - (bytesOfWord v).length = 8 * a + k := by rw [length_bytesOfWord]; omega
      rw [List.getElem?_append_right (by rw [length_bytesOfWord]; omega), hskip, ih (by simpa using hw)]

theorem wordsOfBytes_flatMap_bytesOfWord (ws : List Word) :
    wordsOfBytes ws.length (ws.flatMap bytesOfWord) = .ok ws := by
  induction ws with
  | nil => rfl
  | cons w ws ih =>
    simp only [List.length_cons, List.flatMap_cons, wordsOfBytes, wordOfBytes_bytesOfWord_append, ih]

/-- Settles O7: words take 8 bytes each, least significant first, and each reads back from its 8. -/
theorem unitBytesAreLittleEndian : Obligations.UnitBytesAreLittleEndian :=
  ⟨fun _ _ _ _ hw hk => getElem?_flatMap_bytesOfWord hw hk, wordsOfBytes_flatMap_bytesOfWord⟩

end Sys2Proof.MemoryProofs

/-! PROOFS of the family 30_encoding.md: the opcode map, raw decoding as bit ranges, the round trip between
instructions and words, and a label's offset. -/

namespace Sys2Proof.EncodingProofs

open Sys2Proof Sys2Proof.Machine Sys2Proof.Safety

variable {i : Instr} {w w' : Word}

/-! ## The opcode map -/

theorem shapeOf_opcode (i : Instr) : shapeOf i.opcode = i.fields.shape := by cases i <;> rfl

theorem shapeOf_unassigned {op : Nat} (h : op ∉ assignedOpcodes) : shapeOf op = .A := by
  unfold shapeOf
  split
  -- the last alternative is every value without a row of its own
  case h_22 => rfl
  all_goals exact absurd (by decide) h

/-- An assigned opcode, and no other, gives an instruction, which is one of that opcode. -/
theorem assemble_cases (op : Nat) (f : Fields) :
    (op ∈ assignedOpcodes ∧ ∃ i, assemble op f = .ok i ∧ i.opcode = op) ∨
      (op ∉ assignedOpcodes ∧ assemble op f = .error (.unassignedOpcode op)) := by
  unfold assemble
  split
  -- the last alternative is every value without a row
  case h_28 => exact .inr ⟨by simp_all [assignedOpcodes], rfl⟩
  all_goals exact .inl ⟨by decide, _, rfl, rfl⟩

theorem decode_of_assigned (h : opcodeOf w ∈ assignedOpcodes) : ∃ i, decode w = .ok i := by
  obtain ⟨-, i, hi, -⟩ | ⟨hn, -⟩ := assemble_cases (opcodeOf w) (fieldsOf w (shapeOf (opcodeOf w)))
  · exact ⟨i, hi⟩
  · exact absurd h hn

theorem decode_of_unassigned (h : opcodeOf w ∉ assignedOpcodes) :
    decode w = .error (.unassignedOpcode (opcodeOf w)) := by
  obtain ⟨ha, -⟩ | ⟨-, he⟩ := assemble_cases (opcodeOf w) (fieldsOf w (shapeOf (opcodeOf w)))
  · exact absurd ha h
  · exact he

theorem opcode_assigned_of_decode (h : decode w = .ok i) : opcodeOf w ∈ assignedOpcodes := by
  by_contra hn
  simp [decode_of_unassigned hn] at h

theorem opcode_of_decode (h : decode w = .ok i) : opcodeOf w = i.opcode := by
  obtain ⟨-, j, hj, hop⟩ | ⟨hn, -⟩ := assemble_cases (opcodeOf w) (fieldsOf w (shapeOf (opcodeOf w)))
  · obtain rfl : i = j := Except.ok.inj (h.symm.trans hj)
    exact hop.symm
  · exact absurd (opcode_assigned_of_decode h) hn

/-- With its opcode known, a word decodes by that opcode's row alone. -/
theorem decode_of_opcode {op : Nat} (h : opcodeOf w = op) :
    decode w = assemble op (fieldsOf w (shapeOf op)) := by
  subst h
  rfl

/-! ## Raw decoding -/

theorem bitsOf_eq_extractLsb' (w : Word) {hi lo n : Nat} (h : hi + 1 = lo + n) :
    bitsOf w hi lo = (w.extractLsb' lo n).toNat := by
  rw [bitsOf, BitVec.extractLsb'_toNat, Nat.shiftRight_eq_div_pow, h, Nat.add_sub_cancel_left]

/-- Settles O4: the fields of a word are its bit ranges under the shape of its opcode. -/
theorem rawDecodeCutsBitRanges : Obligations.RawDecodeCutsBitRanges := by
  refine ⟨fun w => ⟨bitsOf_eq_extractLsb' w rfl, fun hA => ?_, fun hB => ?_, fun hC => ?_⟩, shapeOf_opcode,
    fun _ => shapeOf_unassigned⟩
  · exact congrArg Prod.snd (decodeRaw_shapeA rfl hA (bitsOf_eq_extractLsb' w rfl))
  · exact congrArg Prod.snd (decodeRaw_shapeB rfl hB (bitsOf_eq_extractLsb' w rfl) (bitsOf_eq_extractLsb' w rfl))
  · exact congrArg Prod.snd (decodeRaw_shapeC rfl hC (bitsOf_eq_extractLsb' w rfl) (bitsOf_eq_extractLsb' w rfl)
      (bitsOf_eq_extractLsb' w rfl))

/-! ## From an instruction to its word and back -/

theorem encode_ok : encode i = .ok w ↔ i.wellFormed = true ∧ packWord i.opcode i.fields = w := by
  by_cases h : i.wellFormed = true <;> simp [encode, h]

/-- Every field's value has at most the bits its shape gives it (30_encoding.md R92 to R94). -/
def FieldsFit : Fields → Prop
  | .shapeA arg => arg < 2 ^ 56
  | .shapeB a b => a < 2 ^ 24 ∧ b < 2 ^ 32
  | .shapeC a b c => a < 2 ^ 16 ∧ b < 2 ^ 16 ∧ c < 2 ^ 16

theorem fieldsFit_of_wellFormed (h : i.wellFormed = true) : FieldsFit i.fields := by
  cases i with
  | nop => exact Nat.two_pow_pos 56
  | print | jmp | jmpC | rJmpC => exact fitsUnsigned_iff.1 h
  | load | jmpT | jmpF | jmpTC | jmpFC | rJmpTC | rJmpFC => exact fitsB_iff.1 h
  | add | sub | mult | div | mod | fAdd | fDiv | lt | fLt | call => exact fitsC_iff.1 h
  | neg | ret =>
    obtain ⟨ha, hb⟩ := Bool.and_eq_true_iff.1 h
    exact ⟨fitsUnsigned_iff.1 ha, fitsUnsigned_iff.1 hb, Nat.two_pow_pos 16⟩
  | rJmp z => exact truncField_lt 56 z
  | rJmpT r z | rJmpF r z => exact ⟨fitsUnsigned_iff.1 (Bool.and_eq_true_iff.1 h).1, truncField_lt 32 z⟩

/-- Packing loses nothing: the raw decoder gives back an opcode and fields that fit. -/
theorem decodeRaw_packWord {op : Nat} {f : Fields} (ho : op < 2 ^ 8) (hs : shapeOf op = f.shape)
    (hf : FieldsFit f) : decodeRaw (packWord op f) = (op, f) := by
  cases f with
  | shapeA arg =>
    obtain ⟨hop, harg⟩ := pack_shapeA ho hf
    exact decodeRaw_shapeA hop hs harg
  | shapeB a b =>
    obtain ⟨hop, ha, hb⟩ := pack_shapeB ho hf.1 hf.2
    exact decodeRaw_shapeB hop hs ha hb
  | shapeC a b c =>
    obtain ⟨fa, fb, fc⟩ := hf
    obtain ⟨hop, ha, hb, hc, -⟩ := pack_shapeC ho fa fb fc
    exact decodeRaw_shapeC hop hs ha hb hc

/-- An instruction's row reads its fields back; an offset survives because it fits. -/
theorem assemble_opcode_fields (h : i.wellFormed = true) : assemble i.opcode i.fields = .ok i := by
  cases i with
  | rJmp z =>
    obtain ⟨hlo, hhi⟩ := fitsSigned_iff.1 h
    exact congrArg (fun y => Except.ok (Instr.rJmp y)) (signedField_truncField_56 hlo hhi)
  | rJmpT r z =>
    obtain ⟨hlo, hhi⟩ := fitsSigned_iff.1 (Bool.and_eq_true_iff.1 h).2
    exact congrArg (fun y => Except.ok (Instr.rJmpT r y)) (signedField_truncField_32 hlo hhi)
  | rJmpF r z =>
    obtain ⟨hlo, hhi⟩ := fitsSigned_iff.1 (Bool.and_eq_true_iff.1 h).2
    exact congrArg (fun y => Except.ok (Instr.rJmpF r y)) (signedField_truncField_32 hlo hhi)
  | _ => rfl

theorem decodeRaw_of_encode (h : encode i = .ok w) : decodeRaw w = (i.opcode, i.fields) := by
  obtain ⟨hwf, rfl⟩ := encode_ok.1 h
  exact decodeRaw_packWord i.opcode_lt (shapeOf_opcode i) (fieldsFit_of_wellFormed hwf)

theorem decode_of_encode (h : encode i = .ok w) : decode w = .ok i := by
  rw [decode, decodeRaw_of_encode h]
  exact assemble_opcode_fields (encode_ok.1 h).1

/-! ## From a word to its instruction and back -/

/-- The word with every bit from `n` upward zero. -/
def lowBits (w : Word) (n : Nat) : Word := BitVec.ofNat 64 (w.toNat % 2 ^ n)

/-- The word with its unused bits zero (30_encoding.md R96). -/
def clearUnused (w : Word) : Word := lowBits w (usedBits (opcodeOf w))

theorem clearUnused_eq_self_iff : clearUnused w = w ↔ UnusedBitsZero w := by
  have hmod : w.toNat % 2 ^ usedBits (opcodeOf w) < 2 ^ 64 := (Nat.mod_le _ _).trans_lt w.isLt
  rw [← BitVec.toNat_inj, clearUnused, lowBits, toNat_ofNat_word hmod, UnusedBitsZero]
  exact Nat.mod_eq_iff_lt (Nat.two_pow_pos _).ne'

theorem clearUnused_congr (h : SameUsedBits w w') : clearUnused w = clearUnused w' := by
  obtain ⟨hop, hbits⟩ := h
  rw [clearUnused, clearUnused, lowBits, lowBits, hbits, hop]

/-- No bit of a word with an unassigned opcode is unused, so only an assigned opcode's word changes. -/
theorem unusedBitsZero_of_unassigned (h : opcodeOf w ∉ assignedOpcodes) : UnusedBitsZero w := by
  have husedBits : usedBits (opcodeOf w) = 64 := by
    simp_all [assignedOpcodes, usedBits, threeOperandOpcodes]
  rw [UnusedBitsZero, husedBits]
  exact w.isLt

/-! ### The fields of a word, packed again -/

theorem packWord_opcode_only (w : Word) : packWord (opcodeOf w) (.shapeA 0) = lowBits w 8 := by
  simp [packWord, lowBits, opcodeOf, bitsOf]

/-- How many low bits of a word its opcode and the fields of a shape take (30_encoding.md R92 to R94). -/
def shapeBits : Shape → Nat
  | .A => 64
  | .B => 64
  | .C => 56

theorem packWord_fieldsOf (w : Word) (sh : Shape) :
    packWord (opcodeOf w) (fieldsOf w sh) = lowBits w (shapeBits sh) := by
  cases sh with
  | A | B | C =>
    simp only [packWord, lowBits, opcodeOf, bitsOf, fieldsOf, shapeBits]
    congr 1
    omega

theorem packWord_two_of_C (w : Word) :
    packWord (opcodeOf w) (.shapeC (bitsOf w 23 8) (bitsOf w 39 24) 0) = lowBits w 40 := by
  simp only [packWord, lowBits, opcodeOf, bitsOf]
  congr 1
  omega

/-! ### The fields of a word fit -/

/-- A range of `n` bits fits a field of `n` bits. -/
theorem fitsUnsigned_bitsOf (w : Word) {hi lo n : Nat} (h : hi + 1 - lo = n) :
    fitsUnsigned n (bitsOf w hi lo) = true := by
  subst h
  exact fitsUnsigned_iff.2 (Nat.mod_lt _ (Nat.two_pow_pos _))

theorem fitsB_bitsOf (w : Word) : fitsB (bitsOf w 31 8) (bitsOf w 63 32) = true :=
  Bool.and_eq_true_iff.2 ⟨fitsUnsigned_bitsOf w rfl, fitsUnsigned_bitsOf w rfl⟩

theorem fitsC_bitsOf (w : Word) : fitsC (bitsOf w 23 8) (bitsOf w 39 24) (bitsOf w 55 40) = true :=
  fitsC_iff.2 ⟨fitsUnsigned_iff.1 (fitsUnsigned_bitsOf w rfl), fitsUnsigned_iff.1 (fitsUnsigned_bitsOf w rfl),
    fitsUnsigned_iff.1 (fitsUnsigned_bitsOf w rfl)⟩

/-- A field read as a signed offset fits the field it was read from. -/
theorem fitsSigned_signedField {n v : Nat} (h : v < 2 ^ (n + 1)) :
    fitsSigned (n + 1) (signedField (n + 1) v) = true := by
  have hv : (v : Int) < 2 ^ (n + 1) := mod_cast h
  have hhalf : ((2 ^ n : Nat) : Int) = 2 ^ n := by push_cast; rfl
  rw [fitsSigned_iff, signedField, Nat.add_sub_cancel]
  rw [pow_succ] at hv ⊢
  split <;> omega

theorem truncField_signedField {n v : Nat} (h : v < 2 ^ n) : truncField n (signedField n v) = v := by
  have hv : (v : Int) % 2 ^ n = v := Int.emod_eq_of_lt (Int.natCast_nonneg v) (mod_cast h)
  have hmod : signedField n v % 2 ^ n = v := by
    rw [signedField]
    split
    · exact hv
    · rw [Int.sub_emod_right, hv]
  rw [truncField, hmod, Int.toNat_natCast]

/-! ### Decoding, then encoding -/

/-- An instruction whose fields, packed with the word's opcode, are the word's used bits encodes to them. -/
theorem encode_eq_clearUnused {n : Nat} (ho : opcodeOf w = i.opcode) (hu : usedBits i.opcode = n)
    (hwf : i.wellFormed = true) (hp : packWord (opcodeOf w) i.fields = lowBits w n) :
    encode i = .ok (clearUnused w) :=
  encode_ok.2 ⟨hwf, by rw [clearUnused, ho, hu, ← hp, ho]⟩

/-- Encoding a decoded word gives the word back but for its unused bits. -/
theorem encode_of_decode (h : decode w = .ok i) : encode i = .ok (clearUnused w) := by
  have ho := opcode_of_decode h
  rw [decode_of_opcode ho] at h
  cases i with
  | nop => exact encode_eq_clearUnused ho rfl rfl (packWord_opcode_only w)
  | print | jmp | jmpC | rJmpC =>
    dsimp only [Instr.opcode] at h
    cases h
    exact encode_eq_clearUnused ho rfl (fitsUnsigned_bitsOf w rfl) (packWord_fieldsOf w .A)
  | load | jmpT | jmpF | jmpTC | jmpFC | rJmpTC | rJmpFC =>
    dsimp only [Instr.opcode] at h
    cases h
    exact encode_eq_clearUnused ho rfl (fitsB_bitsOf w) (packWord_fieldsOf w .B)
  | add | sub | mult | div | mod | fAdd | fDiv | lt | fLt | call =>
    dsimp only [Instr.opcode] at h
    cases h
    exact encode_eq_clearUnused ho rfl (fitsC_bitsOf w) (packWord_fieldsOf w .C)
  | neg | ret =>
    dsimp only [Instr.opcode] at h
    cases h
    exact encode_eq_clearUnused ho rfl
      (Bool.and_eq_true_iff.2 ⟨fitsUnsigned_bitsOf w rfl, fitsUnsigned_bitsOf w rfl⟩) (packWord_two_of_C w)
  | rJmp z =>
    dsimp only [Instr.opcode] at h
    cases h
    have hfield := fitsUnsigned_iff.1 (fitsUnsigned_bitsOf w (hi := 63) (lo := 8) rfl)
    exact encode_eq_clearUnused ho rfl (fitsSigned_signedField hfield)
      ((congrArg (fun v => packWord (opcodeOf w) (.shapeA v)) (truncField_signedField hfield)).trans
        (packWord_fieldsOf w .A))
  | rJmpT | rJmpF =>
    dsimp only [Instr.opcode] at h
    cases h
    have hfield := fitsUnsigned_iff.1 (fitsUnsigned_bitsOf w (hi := 63) (lo := 32) rfl)
    exact encode_eq_clearUnused ho rfl
      (Bool.and_eq_true_iff.2 ⟨fitsUnsigned_bitsOf w rfl, fitsSigned_signedField hfield⟩)
      ((congrArg (fun v => packWord (opcodeOf w) (.shapeB _ v)) (truncField_signedField hfield)).trans
        (packWord_fieldsOf w .B))

/-- What encode writes has no unused bit set: decoded and encoded again it is the same word, and that is the
word with its unused bits zero. -/
theorem unusedBitsZero_of_encode (h : encode i = .ok w) : UnusedBitsZero w := by
  have hagain : encode i = .ok (clearUnused w) := encode_of_decode (decode_of_encode h)
  exact clearUnused_eq_self_iff.1 (Except.ok.inj (hagain.symm.trans h))

theorem decode_clearUnused (w : Word) : decode (clearUnused w) = decode w := by
  by_cases ha : opcodeOf w ∈ assignedOpcodes
  · obtain ⟨i, hi⟩ := decode_of_assigned ha
    rw [decode_of_encode (encode_of_decode hi), hi]
  · rw [clearUnused_eq_self_iff.2 (unusedBitsZero_of_unassigned ha)]

/-- Settles O1: decode inverts encode, and encode inverts decode exactly on the assigned words whose unused
bits are zero. -/
theorem decodeInvertsEncode : Obligations.DecodeInvertsEncode := by
  refine ⟨fun i hwf => ?_, fun w => ⟨?_, ?_⟩⟩
  · have he : encode i = .ok (packWord i.opcode i.fields) := encode_ok.2 ⟨hwf, rfl⟩
    exact ⟨_, he, decode_of_encode he, decodeRaw_of_encode he⟩
  · rintro ⟨i, hd, he⟩
    exact ⟨opcode_assigned_of_decode hd, unusedBitsZero_of_encode he⟩
  · rintro ⟨ha, hz⟩
    obtain ⟨i, hd⟩ := decode_of_assigned ha
    exact ⟨i, hd, by rw [encode_of_decode hd, clearUnused_eq_self_iff.2 hz]⟩

/-- Settles O2: two words with the same used bits clear to one word, and every word decodes as the word it
clears to. The load check and the dispatcher read a word through decode alone. -/
theorem unusedBitsAreIgnored : Obligations.UnusedBitsAreIgnored := by
  refine ⟨fun i w => unusedBitsZero_of_encode, fun w w' h => ?_⟩
  have hd : decode w = decode w' := by
    rw [← decode_clearUnused w, clearUnused_congr h, decode_clearUnused]
  exact ⟨hd, fun n => by rw [loadCheckWord, loadCheckWord, hd], fun s => by rw [dispatch, dispatch, hd]⟩

/-- Settles O3: a word is an instruction exactly when its opcode is assigned. -/
theorem decodeAcceptsAssignedOpcodes : Obligations.DecodeAcceptsAssignedOpcodes := by
  refine fun w => ⟨fun ha => ?_, decode_of_unassigned⟩
  obtain ⟨i, hd⟩ := decode_of_assigned ha
  exact ⟨i, hd, (encode_ok.1 (encode_of_decode hd)).1⟩

/-! ## Encoding by shifts -/

theorem packWord_shapeA_shifts {op v : Nat} (ho : op < 2 ^ 8) :
    packWord op (.shapeA v) = BitVec.ofNat 64 (v <<< 8 ||| op) := by
  rw [packWord, ← Nat.shiftLeft_add_eq_or_of_lt ho, Nat.shiftLeft_eq]

theorem packWord_shapeB_shifts {op x y : Nat} (ho : op < 2 ^ 8) (hx : x < 2 ^ 24) :
    packWord op (.shapeB x y) = BitVec.ofNat 64 (y <<< 32 ||| x <<< 8 ||| op) := by
  have hlow : x <<< 8 + op < 2 ^ 32 := by rw [Nat.shiftLeft_eq]; omega
  rw [packWord, Nat.or_assoc, ← Nat.shiftLeft_add_eq_or_of_lt ho, ← Nat.shiftLeft_add_eq_or_of_lt hlow,
    Nat.shiftLeft_eq, Nat.shiftLeft_eq, Nat.add_assoc]

theorem packWord_shapeC_shifts {op x y z : Nat} (ho : op < 2 ^ 8) (hx : x < 2 ^ 16) (hy : y < 2 ^ 16) :
    packWord op (.shapeC x y z) = BitVec.ofNat 64 (z <<< 40 ||| y <<< 24 ||| x <<< 8 ||| op) := by
  have hlow : x <<< 8 + op < 2 ^ 24 := by rw [Nat.shiftLeft_eq]; omega
  have hmid : y <<< 24 + (x <<< 8 + op) < 2 ^ 40 := by rw [Nat.shiftLeft_eq]; omega
  rw [packWord, Nat.or_assoc, Nat.or_assoc, ← Nat.shiftLeft_add_eq_or_of_lt ho,
    ← Nat.shiftLeft_add_eq_or_of_lt hlow, ← Nat.shiftLeft_add_eq_or_of_lt hmid, Nat.shiftLeft_eq,
    Nat.shiftLeft_eq, Nat.shiftLeft_eq, Nat.add_assoc, Nat.add_assoc]

/-- Encoding is the packed word where `p` says the operands fit, and the construction error elsewhere. -/
theorem encode_eq_ite {p : Prop} [Decidable p] {n : Nat} (hwf : i.wellFormed = true ↔ p)
    (hn : p → packWord i.opcode i.fields = BitVec.ofNat 64 n) :
    encode i = if p then .ok (BitVec.ofNat 64 n) else .error .operandDoesNotFit := by
  by_cases hp : p
  · rw [if_pos hp, encode, if_pos (hwf.2 hp), hn hp]
  · rw [if_neg hp, encode, if_neg (mt hwf.1 hp)]

theorem encode_shapeA {v : Nat} (hf : i.fields = .shapeA v) (hwf : i.wellFormed = fitsUnsigned 56 v) :
    encode i = if v < 2 ^ 56 then .ok (BitVec.ofNat 64 (v <<< 8 ||| i.opcode)) else .error .operandDoesNotFit :=
  encode_eq_ite (by rw [hwf, fitsUnsigned_iff]) fun _ => by rw [hf, packWord_shapeA_shifts i.opcode_lt]

theorem encode_shapeB {x y : Nat} (hf : i.fields = .shapeB x y) (hwf : i.wellFormed = fitsB x y) :
    encode i = if x < 2 ^ 24 ∧ y < 2 ^ 32 then .ok (BitVec.ofNat 64 (y <<< 32 ||| x <<< 8 ||| i.opcode))
      else .error .operandDoesNotFit :=
  encode_eq_ite (by rw [hwf, fitsB_iff]) fun h => by rw [hf, packWord_shapeB_shifts i.opcode_lt h.1]

theorem encode_shapeC {x y z : Nat} (hf : i.fields = .shapeC x y z) (hwf : i.wellFormed = fitsC x y z) :
    encode i = if x < 2 ^ 16 ∧ y < 2 ^ 16 ∧ z < 2 ^ 16
      then .ok (BitVec.ofNat 64 (z <<< 40 ||| y <<< 24 ||| x <<< 8 ||| i.opcode))
      else .error .operandDoesNotFit :=
  encode_eq_ite (by rw [hwf, fitsC_iff]) fun h => by rw [hf, packWord_shapeC_shifts i.opcode_lt h.1 h.2.1]

/-- Two operands of shape C fit as three do whose third is zero. -/
theorem fitsUnsigned_and_eq_fitsC (x y : Nat) : (fitsUnsigned 16 x && fitsUnsigned 16 y) = fitsC x y 0 :=
  (Bool.and_true _).symm

theorem truncField_eq_toNat_ofInt (n : Nat) (z : Int) : truncField n z = (BitVec.ofInt n z).toNat := by
  rw [truncField, BitVec.toNat_ofInt]
  norm_cast

/-- A relative jump of shape A carries its offset in two's complement; what fits as a signed offset fits its
field. -/
theorem encode_rJmp (z : Int) : encode (.rJmp z) =
    if -(2 ^ 55) ≤ z ∧ z < 2 ^ 55 then
      if (BitVec.ofInt 56 z).toNat < 2 ^ 56 then
        .ok (BitVec.ofNat 64 ((BitVec.ofInt 56 z).toNat <<< 8 ||| 0x48))
      else .error .operandDoesNotFit
    else .error .operandDoesNotFit := by
  rw [← ite_and]
  refine encode_eq_ite (fitsSigned_iff.trans (and_iff_left (BitVec.isLt _)).symm) fun _ => ?_
  rw [← truncField_eq_toNat_ofInt]
  exact packWord_shapeA_shifts (Instr.opcode_lt _)

/-- The same for the two relative jumps of shape B, whose other operand is a register. -/
theorem encode_offset32 {x : Nat} {z : Int} (hf : i.fields = .shapeB x (truncField 32 z))
    (hwf : i.wellFormed = (fitsUnsigned 24 x && fitsSigned 32 z)) : encode i =
    if -(2 ^ 31) ≤ z ∧ z < 2 ^ 31 then
      if x < 2 ^ 24 ∧ (BitVec.ofInt 32 z).toNat < 2 ^ 32 then
        .ok (BitVec.ofNat 64 ((BitVec.ofInt 32 z).toNat <<< 32 ||| x <<< 8 ||| i.opcode))
      else .error .operandDoesNotFit
    else .error .operandDoesNotFit := by
  have hfit : i.wellFormed = true ↔
      (-(2 ^ 31) ≤ z ∧ z < 2 ^ 31) ∧ x < 2 ^ 24 ∧ (BitVec.ofInt 32 z).toNat < 2 ^ 32 := by
    rw [hwf, Bool.and_eq_true, fitsUnsigned_iff, fitsSigned_iff, and_iff_left (BitVec.isLt _), and_comm]
  rw [← ite_and]
  refine encode_eq_ite hfit fun ⟨_, hx, _⟩ => ?_
  rw [hf, ← truncField_eq_toNat_ofInt]
  exact packWord_shapeB_shifts i.opcode_lt hx

/-- Settles O5, instruction by instruction, each by the layout of its shape. -/
theorem encodeBuildsWordsByShifts : Obligations.EncodeBuildsWordsByShifts :=
  ⟨rfl,
    fun _ => encode_shapeA rfl rfl,
    fun _ _ => encode_shapeB rfl rfl,
    fun _ _ _ => encode_shapeC rfl rfl,
    fun _ _ _ => encode_shapeC rfl rfl,
    fun _ _ _ => encode_shapeC rfl rfl,
    fun _ _ _ => encode_shapeC rfl rfl,
    fun _ _ _ => encode_shapeC rfl rfl,
    fun _ _ => encode_shapeC rfl (fitsUnsigned_and_eq_fitsC _ _),
    fun _ _ _ => encode_shapeC rfl rfl,
    fun _ _ _ => encode_shapeC rfl rfl,
    fun _ _ _ => encode_shapeC rfl rfl,
    fun _ _ _ => encode_shapeC rfl rfl,
    fun _ => encode_shapeA rfl rfl,
    fun _ _ => encode_shapeB rfl rfl,
    fun _ _ => encode_shapeB rfl rfl,
    fun _ => encode_shapeA rfl rfl,
    fun _ _ => encode_shapeB rfl rfl,
    fun _ _ => encode_shapeB rfl rfl,
    encode_rJmp,
    fun _ _ => encode_offset32 rfl rfl,
    fun _ _ => encode_offset32 rfl rfl,
    fun _ => encode_shapeA rfl rfl,
    fun _ _ => encode_shapeB rfl rfl,
    fun _ _ => encode_shapeB rfl rfl,
    fun _ _ _ => encode_shapeC rfl rfl,
    fun _ _ => encode_shapeC rfl (fitsUnsigned_and_eq_fitsC _ _)⟩

/-! ## Words of the test vectors -/

/-- Settles O6: each word is the encoding of its instruction. -/
theorem decodeSampleWords : Obligations.DecodeSampleWords :=
  ⟨decode_of_encode rfl, decode_of_encode rfl, decode_of_encode rfl, decode_of_encode rfl, decode_of_encode rfl,
    decode_of_encode rfl, decode_of_encode rfl, decode_of_encode rfl, decode_of_encode rfl, decode_of_encode rfl,
    decode_of_encode rfl, decode_of_encode rfl, decode_of_encode rfl⟩

/-! ## Label offsets -/

/-- A jump whose target is inside the instruction store sets `ip` and changes nothing else. -/
theorem jumpTo_of_inCode {s : State} {f : Frame} {callers : List Frame} {target : Frame → Int}
    (hs : s.stack = f :: callers) (ht : InCode s (target f)) :
    jumpTo target s = .next (withIp s f callers (target f).toNat) := by
  rw [jumpTo, attempt_of_stack hs, land_ok.2 ⟨ht.1, ht.2, State.setIp_of_stack _ hs⟩]
  rfl

/-- The offset of a label undoes the count from the instruction after the jump (30_encoding.md R111,
45_jumps.md R214). -/
theorem relTarget_labelOffset (f : Frame) (label : Nat) : relTarget f (labelOffset label f.ip) = label := by
  rw [relTarget, labelOffset]
  omega

/-- Settles O59: the resolved offset's target is the label. -/
theorem labelOffsetsReachTheirLabel : Obligations.LabelOffsetsReachTheirLabel := by
  intro s f callers label hs hlabel
  have hin : InCode s (relTarget f (labelOffset label f.ip)) := by
    rw [relTarget_labelOffset]
    exact ⟨Int.natCast_nonneg _, Int.ofNat_lt.2 hlabel⟩
  have hjump := jumpTo_of_inCode (target := fun g => relTarget g (labelOffset label f.ip)) hs hin
  rwa [relTarget_labelOffset, Int.toNat_natCast] at hjump

end Sys2Proof.EncodingProofs

/-! PROOFS of the family 40_dispatch.md: what a step does with the word it fetches, the default advance, the
ways a run ends, `Nop` and `Print`. -/

namespace Sys2Proof.DispatchProofs

open Sys2Proof Sys2Proof.Machine Sys2Proof.Safety

variable {s t : State} {f : Frame} {callers : List Frame} {i : Instr} {w : Word}

/-! ## Advancing and faulting in an active frame -/

/-- The default advance is the claims' `withIp`. -/
theorem advance_eq_withIp (hs : s.stack = f :: callers) : s.advance = withIp s f callers (f.ip + 1) :=
  State.advance_of_stack hs

/-- A taken fault is the claims' `faulted`. -/
theorem raise_eq_faulted (hs : s.stack = f :: callers) (k : FaultKind) : raise k s = faulted s f callers k := by
  rw [raise, State.ip_of_stack hs, State.depth_of_stack hs]
  rfl

/-- An attempted rule that raises `k` leaves its fault. -/
theorem attempt_of_error {rule : Frame → List Frame → Except FaultKind State} {k : FaultKind}
    (hs : s.stack = f :: callers) (h : rule f callers = .error k) :
    attempt s rule = .next (faulted s f callers k) := by
  rw [attempt_of_stack hs, h, ← raise_eq_faulted hs]

/-- An attempted rule that answers a state leaves that state. -/
theorem attempt_of_ok {rule : Frame → List Frame → Except FaultKind State} (hs : s.stack = f :: callers)
    (h : rule f callers = .ok t) : attempt s rule = .next t := by
  rw [attempt_of_stack hs, h]

/-! ## The running step -/

/-- Running with an active frame, a step dispatches the word at that frame's `ip`. -/
theorem step_of_fetched (hr : s.run = .running) (hs : s.stack = f :: callers) (hw : s.code[f.ip]? = some w) :
    step s = dispatch w s := by
  have hf : s.fetch = some w := by rw [State.fetch, State.ip_of_stack hs, hw]
  simp only [step_of_running hr, stepRunning, hs, hf]

/-- Where the store holds no word at that `ip`, a step halts. -/
theorem step_of_exhausted (hr : s.run = .running) (hs : s.stack = f :: callers) (hw : s.code[f.ip]? = none) :
    step s = .next (haltExhausted s) := by
  have hf : s.fetch = none := by rw [State.fetch, State.ip_of_stack hs, hw]
  simp only [step_of_running hr, stepRunning, hs, hf]

/-- Settles O11: what decodes is well-formed because it encodes again. -/
theorem stepRunsDecodedInstruction : Obligations.StepRunsDecodedInstruction := by
  intro s f callers w i hr hs hw hi
  exact ⟨(EncodingProofs.encode_ok.1 (EncodingProofs.encode_of_decode hi)).1, step_of_decoded hr hs hw hi⟩

/-- Settles O12: beyond the end of the store there is no word to fetch. -/
theorem exhaustedStreamHaltsNormally : Obligations.ExhaustedStreamHaltsNormally := by
  intro s f callers hr hs hend
  exact step_of_exhausted hr hs (List.getElem?_eq_none_iff.2 hend)

/-- Settles O13: an unassigned opcode does not decode. -/
theorem unknownOpcodeRaisesDecodeFault : Obligations.UnknownOpcodeRaisesDecodeFault := by
  intro s f callers w hr hs hw hop
  rw [step_of_fetched hr hs hw, dispatch, EncodingProofs.decode_of_unassigned hop, raiseDecode,
    raise_eq_faulted hs]

/-! ## Nop and Print -/

/-- Settles O15: the rule of `Nop` is the default advance. -/
theorem nopOnlyAdvances : Obligations.NopOnlyAdvances := by
  intro s f callers hs
  rw [exec, execNop, attempt_of_ok hs (except_pure s.advance), advance_eq_withIp hs]

/-- A printable register is emitted, with the default advance. -/
theorem exec_print_of_ok {reg : Nat} {v : Slot} (hs : s.stack = f :: callers)
    (h : readPrintable s f reg = .ok v) :
    exec (.print reg) s = .next { withIp s f callers (f.ip + 1) with out := s.out ++ [v] } := by
  have hs' : (s.emit v).stack = f :: callers := hs
  refine attempt_of_ok hs ?_
  rw [h, except_ok_bind, advance_eq_withIp hs']
  rfl

/-- `Print` takes the fault of its read. -/
theorem exec_print_of_error {reg : Nat} {k : FaultKind} (hs : s.stack = f :: callers)
    (h : readPrintable s f reg = .error k) : exec (.print reg) s = .next (faulted s f callers k) :=
  attempt_of_error hs (by rw [h, except_error_bind])

/-- Settles O16: the read of `Print` answers a numeric slot, or faults by the bound and then by the tag. -/
theorem printEmitsNumericSlot : Obligations.PrintEmitsNumericSlot := by
  intro s f callers reg hs
  refine ⟨fun _ hreg hv => ?_, fun hreg => ?_, fun hreg hv => ?_⟩
  · refine exec_print_of_ok hs (readPrintable_ok.2 ⟨hreg, rfl, ?_⟩)
    obtain hv | hv := hv <;> simp [hv, Slot.tag]
  · exact exec_print_of_error hs (readPrintable_error.2 (.inl ⟨hreg, rfl⟩))
  · refine exec_print_of_error hs (readPrintable_error.2 (.inr ⟨hreg, ?_⟩))
    obtain hv | hv := hv <;> simp [hv, Slot.tag]

/-! ## The default advance -/

/-- `t` has the call stack of `s` after the default advance, or is `s` with a fault taken. -/
def AdvancedOrFaulted (s t : State) : Prop := t.stack = s.advance.stack ∨ ∃ k, t = raise k s

theorem advancedOrFaulted_of_intBinary {a b c : Nat} {op : Payload → Payload → Except FaultKind Slot}
    (h : intBinary a b c op s = .next t) : AdvancedOrFaulted s t := by
  obtain ⟨-, -, -, ⟨-, -, -, -, -, -, -, -, -, rfl⟩ | hk⟩ := intBinary_next h
  · exact .inl rfl
  · exact .inr hk

theorem advancedOrFaulted_of_floatBinary {a b c : Nat} {op : Payload → Payload → Except FaultKind Slot}
    {after : State → State} (hafter : ∀ u, (after u).stack = u.stack)
    (h : floatBinary a b c op after s = .next t) : AdvancedOrFaulted s t := by
  obtain ⟨-, -, -, ⟨-, -, -, -, -, -, -, -, -, rfl⟩ | hk⟩ := floatBinary_next h
  · exact .inl (by simp only [State.advance_stack, State.ip, hafter, State.setSlot_stack])
  · exact .inr hk

/-- Every instruction below the jumps ends with the default advance or a fault. -/
theorem exec_advancedOrFaulted (hi : transfersControl i = false) (h : exec i s = .next t) :
    AdvancedOrFaulted s t := by
  cases i with
  | nop => exact .inl (congrArg State.stack (execNop_next h))
  | print reg =>
    obtain ⟨-, -, -, ⟨-, -, -, -, rfl⟩ | hk⟩ := execPrint_next h
    · exact .inl rfl
    · exact .inr hk
  | load a index =>
    obtain ⟨-, -, -, ⟨-, -, -, -, -, rfl⟩ | hk⟩ := execLoad_next h
    · exact .inl rfl
    · exact .inr hk
  | neg a b =>
    obtain ⟨-, -, -, ⟨-, -, -, -, rfl⟩ | hk⟩ := execNeg_next h
    · exact .inl rfl
    · exact .inr hk
  | add | sub | mult | div | mod | lt => exact advancedOrFaulted_of_intBinary h
  | fAdd | fDiv => exact advancedOrFaulted_of_floatBinary State.nextDraw_stack h
  | fLt => exact advancedOrFaulted_of_floatBinary (after := id) (fun _ => rfl) h
  | jmp | jmpT | jmpF | jmpC | jmpTC | jmpFC | rJmp | rJmpT | rJmpF | rJmpC | rJmpTC | rJmpFC | call | ret =>
    cases hi

/-- Settles O49: what did not fault advanced. -/
theorem defaultAdvanceByOneWord : Obligations.DefaultAdvanceByOneWord := by
  intro i s t hi _ h ht
  obtain ⟨f, callers, hs⟩ := stack_of_exec h
  obtain hstack | ⟨k, rfl⟩ := exec_advancedOrFaulted hi h
  · exact ⟨f, callers, hs, by rw [hstack, State.advance_of_stack hs, State.withStack_stack]⟩
  · cases ht

/-! ## The ends of a run -/

theorem call_or_ret_of_opcode (h : i.opcode = 0x50 ∨ i.opcode = 0x51) :
    (∃ n start func, i = .call n start func) ∨ ∃ n start, i = .ret n start := by
  cases i with
  | call n start func => exact .inl ⟨n, start, func, rfl⟩
  | ret n start => exact .inr ⟨n, start, rfl⟩
  | _ => simp [Instr.opcode] at h

theorem jumpAnswers_run (h : JumpAnswers s t) : t.run = s.run ∨ ∃ k, t = raise k s := by
  obtain ⟨n, -, rfl⟩ | rfl | hk := h
  · exact .inl rfl
  · exact .inl rfl
  · exact .inr hk

/-- An instruction leaves the dispatcher as it is, takes a fault, or is the outermost `Ret`. -/
theorem exec_run (h : exec i s = .next t) :
    t.run = s.run ∨ (∃ k, t = raise k s) ∨
      ∃ n start vs, i = .ret n start ∧ s.depth = 1 ∧ vs.length = n ∧ t = s.halt (.normal vs) := by
  obtain ⟨f, callers, hs⟩ := stack_of_exec h
  cases StateProofs.exec_instrEffect hs h with
  | moved hj => exact (jumpAnswers_run hj).imp_right .inl
  | wrote | wroteDrawing | printed => exact .inl rfl
  | framed hi =>
    obtain ⟨n, start, func, rfl⟩ | ⟨n, start, rfl⟩ := call_or_ret_of_opcode hi
    · obtain ⟨-, -, -, ⟨-, -, -, -, -, -, -, -, -, rfl⟩ | hk⟩ := execCall_next h
      · exact .inl rfl
      · exact .inr (.inl hk)
    · obtain ⟨g, -, hg, ⟨rfl, -, rfl⟩ | ⟨-, -, -, -, -, -, rfl⟩ | hk⟩ := execRet_next h
      · exact .inr (.inr ⟨n, start, _, rfl, State.depth_of_stack hg, State.slotsFrom_length .., rfl⟩)
      · exact .inl rfl
      · exact .inr (.inl hk)

/-- Settles O51: every way a step can halt goes through `State.halt`. -/
theorem runsEndOnlyThreeWays : Obligations.RunsEndOnlyThreeWays := by
  intro s t hr h ht
  obtain ⟨hhalted, -⟩ | ⟨-, f, callers, hs, hstep⟩ := step_next h
  · cases hr.symm.trans hhalted
  rw [← State.ip_of_stack hs] at hstep
  obtain ⟨hend, rfl⟩ | ⟨w, hw, ⟨-, rfl⟩ | ⟨i, hi, hexec⟩⟩ := hstep
  · exact ⟨rfl, .inl ⟨rfl, hend⟩⟩
  · exact ⟨rfl, .inr (.inr ⟨.decodeFault, rfl⟩)⟩
  · obtain hrun | ⟨k, rfl⟩ | ⟨n, start, vs, rfl, hdepth, hlen, rfl⟩ := exec_run hexec
    · cases (hr.symm.trans hrun.symm).trans ht
    · exact ⟨rfl, .inr (.inr ⟨k, rfl⟩)⟩
    · exact ⟨rfl, .inr (.inl ⟨w, n, start, vs, hdepth, hw, hi, rfl, hlen⟩)⟩

end Sys2Proof.DispatchProofs

/-! PROOFS of the family 41_load.md: a register write with its whole frame, and `Load`. -/

namespace Sys2Proof.LoadProofs

open Sys2Proof Sys2Proof.Machine Sys2Proof.Safety Sys2Proof.DispatchProofs

variable {s : State} {f : Frame} {callers : List Frame} {w index : Nat} {e : Const} {r : Slot}

/-! ## A register write -/

/-- A slot written inside the window, with the default advance, is the claims' `WroteRegister`; the window
lying in the arena is what makes the slot read back. -/
theorem wroteRegister_setSlot_advance (ha : Active s f callers) (hw : w < f.size) (r : Slot) :
    WroteRegister s f callers w r 0 (s.setSlot (f.base + w) r).advance where
  written := by
    have hk : f.base + w < s.regfileSize := Nat.lt_of_lt_of_le (Nat.add_lt_add_left hw _) ha.fits
    rw [State.slotAt_advance, State.slotAt_setSlot_same r hk]
  others k hk := by rw [State.slotAt_advance, State.slotAt_setSlot_other r hk]
  stack := by
    have hs : (s.setSlot (f.base + w) r).stack = f :: callers := ha.stack
    rw [State.advance_of_stack hs, State.withStack_stack]
  unit := ⟨rfl, rfl, rfl, rfl, State.regfileSize_setSlot ..⟩
  run := rfl
  result := rfl
  out := rfl
  draws := rfl

/-! ## Load -/

/-- Where every check passes, `Load` writes the constant's slot and advances. -/
theorem exec_load_of_ok (hs : s.stack = f :: callers) (hw : w < f.size) (he : s.pool[index]? = some e)
    (hr : constSlot e = .ok r) : exec (.load w index) s = .next (s.setSlot (f.base + w) r).advance := by
  refine attempt_of_ok hs ?_
  rw [chk_of_lt hw, readConst_ok.2 he, except_ok_bind, except_ok_bind, hr, except_ok_bind,
    writeReg_ok.2 ⟨hw, rfl⟩, except_ok_bind, except_pure]

/-- The destination's bound is checked first. -/
theorem exec_load_of_register_ge (hs : s.stack = f :: callers) (hw : f.size ≤ w) :
    exec (.load w index) s = .next (faulted s f callers .indexFault) :=
  attempt_of_error hs (by rw [chk_of_ge hw, except_error_bind])

/-- The pool's bound is checked second. -/
theorem exec_load_of_index_ge (hs : s.stack = f :: callers) (hw : w < f.size) (hj : s.poolLen ≤ index) :
    exec (.load w index) s = .next (faulted s f callers .indexFault) :=
  attempt_of_error hs (by rw [chk_of_lt hw, except_ok_bind, readConst_error.2 ⟨hj, rfl⟩, except_error_bind])

/-- The constant's kind is checked last. -/
theorem exec_load_of_jump (hs : s.stack = f :: callers) (hw : w < f.size) (he : s.pool[index]? = some e)
    (hk : e.kind = .jump) : exec (.load w index) s = .next (faulted s f callers .typeFault) :=
  attempt_of_error hs (by rw [chk_of_lt hw, readConst_ok.2 he, except_ok_bind, except_ok_bind,
    constSlot_error.2 ⟨hk, rfl⟩, except_error_bind])

/-- Settles O17: one lemma for the completed `Load` and one for each check, in the rule's order. -/
theorem loadCopiesConstant : Obligations.LoadCopiesConstant := by
  intro s f callers w index ha
  refine ⟨fun e r hw he hr => ?_, fun h => ?_, fun e hw he hk => exec_load_of_jump ha.stack hw he hk⟩
  · exact ⟨_, exec_load_of_ok ha.stack hw he (constSlot_ok.2 hr), wroteRegister_setSlot_advance ha hw r⟩
  · obtain hw | hw := Nat.lt_or_ge w f.size
    · exact exec_load_of_index_ge ha.stack hw (h.resolve_left (Nat.not_le.2 hw))
    · exact exec_load_of_register_ge ha.stack hw

end Sys2Proof.LoadProofs

/-! PROOFS of the family 42_integer_arithmetic.md: the wrapped results of the integer instructions, the laws
of their quotient and remainder, and the fault of a zero divisor. -/

namespace Sys2Proof.IntArithProofs

open Sys2Proof Sys2Proof.Machine Sys2Proof.Safety Sys2Proof.DispatchProofs Sys2Proof.LoadProofs

variable {s t : State} {f : Frame} {callers : List Frame} {w p q : Nat} {u v d r : Payload}

/-! ## Results modulo 2^64 -/

/-- Truncation undoes the signed reading. -/
theorem trunc64_toInt (u : Payload) : trunc64 u.toInt = u := BitVec.ofInt_toInt

theorem trunc64_add (a b : Int) : trunc64 (a + b) = trunc64 a + trunc64 b := BitVec.ofInt_add a b

theorem trunc64_mul (a b : Int) : trunc64 (a * b) = trunc64 a * trunc64 b := BitVec.ofInt_mul a b

theorem trunc64_sub (a b : Int) : trunc64 (a - b) = trunc64 a - trunc64 b := by
  rw [Int.sub_eq_add_neg, trunc64_add, BitVec.sub_eq_add_neg]
  exact congrArg (trunc64 a + ·) BitVec.ofInt_neg

/-! ## The quotient and the remainder -/

theorem toInt_ne_zero (hv : v ≠ 0) : v.toInt ≠ 0 := BitVec.toInt_ne.2 hv

/-- The quotient as R174 writes it, by signs and magnitudes, is the library's truncated quotient. -/
theorem quotient_eq_tdiv (a b : Int) : quotient a b = a.tdiv b := by
  have hmag : (a.tdiv b).natAbs = a.natAbs / b.natAbs := Int.natAbs_tdiv a b
  rw [quotient, ← Int.sign_mul_natAbs (a.tdiv b), Int.sign_tdiv, hmag]
  split
  next hlt => simp [Nat.div_eq_of_lt hlt]
  next => rfl

/-- What `Mod` computes is the library's truncated remainder. -/
theorem sub_quotient_mul_eq_tmod (a b : Int) : a - quotient a b * b = a.tmod b := by
  rw [quotient_eq_tdiv, Int.tmod_def, Int.mul_comm]

/-- `MIN / -1` is a statement about the two words. -/
theorem min_by_neg_one_iff :
    (u.toInt = -(2 ^ 63) ∧ v.toInt = -1) ↔ (u = BitVec.intMin 64 ∧ v = -1#64) := by
  have hmin : (BitVec.intMin 64).toInt = -(2 ^ 63) := by decide
  have hneg : (-1#64).toInt = -1 := by decide
  rw [← hmin, ← hneg, BitVec.toInt_inj, BitVec.toInt_inj]

/-- Short of `MIN / -1` the truncated quotient is a 64-bit integer. -/
theorem toInt_trunc64_tdiv (h : ¬(u.toInt = -(2 ^ 63) ∧ v.toInt = -1)) :
    (trunc64 (u.toInt.tdiv v.toInt)).toInt = u.toInt.tdiv v.toInt := by
  rw [min_by_neg_one_iff, not_and_or] at h
  rw [← BitVec.toInt_sdiv_of_ne_or_ne u v h, trunc64_toInt]

/-- The truncated remainder always is one. -/
theorem toInt_trunc64_tmod (u v : Payload) :
    (trunc64 (u.toInt.tmod v.toInt)).toInt = u.toInt.tmod v.toInt := by
  rw [← BitVec.toInt_srem u v, trunc64_toInt]

/-- R170's law, modulo 2^64 and with no exception. -/
theorem trunc64_tdiv_mul_add_tmod (u v : Payload) :
    trunc64 (u.toInt.tdiv v.toInt) * v + trunc64 (u.toInt.tmod v.toInt) = u :=
  calc
    _ = trunc64 (u.toInt.tdiv v.toInt * v.toInt + u.toInt.tmod v.toInt) := by
      rw [trunc64_add, trunc64_mul, trunc64_toInt]
    _ = u := by rw [Int.tdiv_mul_add_tmod, trunc64_toInt]

theorem natAbs_tmod_lt (a : Int) {b : Int} (hb : b ≠ 0) : (a.tmod b).natAbs < b.natAbs := by
  rw [Int.natAbs_tmod]
  exact Nat.mod_lt _ (Int.natAbs_pos.2 hb)

theorem tmod_zero_or_sign (a b : Int) : a.tmod b = 0 ∨ (a.tmod b).sign = a.sign := by
  rw [Int.sign_tmod]
  split
  next hdvd => exact .inl (Int.tmod_eq_zero_of_dvd hdvd)
  next => exact .inr rfl

/-- The truncated quotient is no farther from zero than the true ratio. -/
theorem natAbs_tdiv_mul_le (a b : Int) : (a.tdiv b * b).natAbs ≤ a.natAbs := by
  rw [Int.natAbs_mul, Int.natAbs_tdiv]
  exact Nat.div_mul_le_self _ _

/-! ## The instructions of two integer sources -/

/-- Where the operation answers a slot, that slot is written and nothing else changes. -/
theorem intBinary_wrote {op : Payload → Payload → Except FaultKind Slot} {x : Slot} (ha : Active s f callers)
    (hw : w < f.size) (hsrc : IntSources s f p q u v) (hop : op u v = .ok x) :
    ∃ t, intBinary w p q op s = .next t ∧ WroteRegister s f callers w x 0 t :=
  ⟨_, intBinary_of_ok ha.stack hw hsrc.first hsrc.second hsrc.firstSlot hsrc.secondSlot hop,
    wroteRegister_setSlot_advance ha hw x⟩

/-- Where the operation raises, its fault is taken and nothing is written. -/
theorem intBinary_faulted {op : Payload → Payload → Except FaultKind Slot} {k : FaultKind}
    (hs : s.stack = f :: callers) (hw : w < f.size) (hsrc : IntSources s f p q u v)
    (hop : op u v = .error k) : intBinary w p q op s = .next (faulted s f callers k) := by
  rw [← raise_eq_faulted hs]
  exact intBinary_of_error hs hw hsrc.first hsrc.second hsrc.firstSlot hsrc.secondSlot hop

/-- Settles O18: truncating the exact result is computing modulo 2^64. -/
theorem addSubMultWriteWrappedResult : Obligations.AddSubMultWriteWrappedResult := by
  intro s f callers w p q u v ha hw hsrc
  refine ⟨intBinary_wrote ha hw hsrc ?_, intBinary_wrote ha hw hsrc ?_, intBinary_wrote ha hw hsrc ?_⟩
  · rw [trunc64_add, trunc64_toInt, trunc64_toInt, except_pure]
  · rw [trunc64_sub, trunc64_toInt, trunc64_toInt, except_pure]
  · rw [trunc64_mul, trunc64_toInt, trunc64_toInt, except_pure]

/-- Settles O20: `Neg` writes zero minus its source. -/
theorem negWritesWrappedNegation : Obligations.NegWritesWrappedNegation := by
  intro s f callers w p u ha hw hp hu
  have hneg : trunc64 (0 - u.toInt) = -u := by
    rw [trunc64_sub, trunc64_toInt]
    exact BitVec.zero_sub u
  refine ⟨_, attempt_of_ok ha.stack ?_, wroteRegister_setSlot_advance ha hw (.int (-u))⟩
  rw [chk_of_lt hw, chk_of_lt hp, readInt_ok.2 ⟨hp, hu⟩, except_ok_bind, except_ok_bind, except_ok_bind, hneg,
    writeReg_ok.2 ⟨hw, rfl⟩, except_ok_bind, except_pure]

/-- Settles O19: the divisor passes its check, and the rules' formulas are the truncated quotient and
remainder. -/
theorem divModTruncateTowardZero : Obligations.DivModTruncateTowardZero := by
  intro s f callers w p q u v ha hw hsrc hv
  refine ⟨intBinary_wrote ha hw hsrc ?_, intBinary_wrote ha hw hsrc ?_⟩
  · rw [raiseIf_of_not hv, except_ok_bind, quotient_eq_tdiv, trunc64, except_pure]
  · rw [raiseIf_of_not hv, except_ok_bind, sub_quotient_mul_eq_tmod, trunc64, except_pure]

/-- Settles O32: the check of the divisor comes before the write. -/
theorem integerZeroDivisorFaults : Obligations.IntegerZeroDivisorFaults := by
  intro s f callers w p q u hs hw hsrc
  exact ⟨intBinary_faulted hs hw hsrc (by rw [raiseIf_of rfl, except_error_bind]),
    intBinary_faulted hs hw hsrc (by rw [raiseIf_of rfl, except_error_bind])⟩

/-! ## The laws of the written quotient and remainder -/

/-- The integer found in a register is the one the instruction wrote there. -/
theorem eq_of_wroteRegister {o : Host.Outcome State Fault Refusal} {x : Payload} {draws : Nat}
    (h : ∃ t, o = .next t ∧ WroteRegister s f callers w (.int x) draws t) (ho : o = .next t)
    (hd : t.slotAt (f.base + w) = .int d) : d = x := by
  obtain ⟨t', ho', hwrote⟩ := h
  cases ho.symm.trans ho'
  exact Slot.int.inj (hd.symm.trans hwrote.written)

/-- Settles O22: both results are known by O19, the remainder fits 64 bits, and so does the quotient short of
`MIN / -1`, so there the laws are those of the exact quotient and remainder. -/
theorem divisionLaws : Obligations.DivisionLaws := by
  intro s t t' f callers w p q u v d r ha hw hsrc hv hdiv hd hmod hr
  obtain ⟨hquot, hrem⟩ := divModTruncateTowardZero s f callers w p q u v ha hw hsrc hv
  obtain rfl : d = trunc64 (u.toInt.tdiv v.toInt) := eq_of_wroteRegister hquot hdiv hd
  obtain rfl : r = trunc64 (u.toInt.tmod v.toInt) := eq_of_wroteRegister hrem hmod hr
  rw [toInt_trunc64_tmod]
  refine ⟨(trunc64_tdiv_mul_add_tmod u v).symm, natAbs_tmod_lt _ (toInt_ne_zero hv), tmod_zero_or_sign _ _, ?_⟩
  split
  next hmin =>
    rw [hmin.1, hmin.2, (min_by_neg_one_iff.1 hmin).1]
    decide
  next hmin =>
    rw [toInt_trunc64_tdiv hmin]
    exact ⟨(Int.tdiv_mul_add_tmod _ _).symm, natAbs_tdiv_mul_le _ _⟩

end Sys2Proof.IntArithProofs


/-! PROOFS of the family 43_float_arithmetic.md: which sums and quotients are NaNs, what `FAdd` and `FDiv`
write, and that a finite result is correctly rounded. -/

namespace Sys2Proof.FloatArithProofs

open Sys2Proof Sys2Proof.Machine Sys2Proof.Safety Sys2Proof.DispatchProofs Sys2Proof.LoadProofs

variable {s : State} {f : Frame} {callers : List Frame} {w p q num den : Nat} {u v r x : Payload} {neg : Bool}

/-! ## Patterns: a sign and a magnitude pattern -/

theorem f64InfMag_lt : f64InfMag < 2 ^ 63 := by decide

theorem f64Mag_lt (v : Payload) : f64Mag v < 2 ^ 63 := Nat.mod_lt _ (by decide)

theorem f64Neg_iff : f64Neg v = true ↔ 2 ^ 63 ≤ v.toNat := decide_eq_true_iff

theorem f64IsNaN_iff : f64IsNaN v = true ↔ f64InfMag < f64Mag v := decide_eq_true_iff

theorem f64IsInf_iff : f64IsInf v = true ↔ f64Mag v = f64InfMag := decide_eq_true_iff

theorem f64IsZero_iff : f64IsZero v = true ↔ f64Mag v = 0 := decide_eq_true_iff

theorem f64IsFinite_iff : f64IsFinite v = true ↔ f64Mag v < f64InfMag := decide_eq_true_iff

theorem f64Pack_neg_mag (v : Payload) : f64Pack (f64Neg v) (f64Mag v) = v := by
  apply BitVec.eq_of_toNat_eq
  have hmag : f64Mag v = v.toNat % 2 ^ 63 := rfl
  rw [f64Pack_toNat (f64Mag_lt v)]
  split
  next hneg =>
    have := f64Neg_iff.1 hneg
    omega
  next hneg =>
    have := mt f64Neg_iff.2 hneg
    omega

theorem eq_of_neg_of_mag (hneg : f64Neg u = f64Neg v) (hmag : f64Mag u = f64Mag v) : u = v := by
  rw [← f64Pack_neg_mag u, hneg, hmag, f64Pack_neg_mag]

theorem nan_or_inf_or_finite (v : Payload) :
    f64IsNaN v = true ∨ f64IsInf v = true ∨ f64IsFinite v = true := by
  rw [f64IsNaN_iff, f64IsInf_iff, f64IsFinite_iff]
  omega

theorem f64IsNaN_of_inf (h : f64IsInf v = true) : f64IsNaN v = false := by
  rw [← Bool.not_eq_true, f64IsNaN_iff, f64IsInf_iff.1 h]
  exact lt_irrefl _

theorem f64IsNaN_of_finite (h : f64IsFinite v = true) : f64IsNaN v = false := by
  rw [← Bool.not_eq_true, f64IsNaN_iff]
  exact lt_asymm (f64IsFinite_iff.1 h)

theorem f64IsInf_of_finite (h : f64IsFinite v = true) : f64IsInf v = false := by
  rw [← Bool.not_eq_true, f64IsInf_iff]
  exact ne_of_lt (f64IsFinite_iff.1 h)

/-- A zero is one of the two patterns of magnitude zero. -/
theorem f64IsZero_iff_eq : f64IsZero v = true ↔ v = 0x0000000000000000 ∨ v = 0x8000000000000000 := by
  constructor
  · intro h
    rw [← f64Pack_neg_mag v, f64IsZero_iff.1 h]
    cases f64Neg v
    · exact .inl rfl
    · exact .inr rfl
  · rintro (rfl | rfl) <;> rfl

/-! ## NaNs -/

theorem f64IsNaN_pack (h : n ≤ f64InfMag) : f64IsNaN (f64Pack neg n) = false := by
  rw [← Bool.not_eq_true, f64IsNaN_iff, f64Mag_pack (h.trans_lt f64InfMag_lt)]
  exact h.not_gt

theorem nanPattern_mag_lt (less : Fin (2 ^ 52 - 2 + 1)) : f64InfMag + 1 + less.val < 2 ^ 63 := by
  have := less.isLt
  rw [f64InfMag]
  omega

/-- R193: the patterns a draw can give are the NaNs. -/
theorem f64IsNaN_iff_nanPattern : f64IsNaN r = true ↔ ∃ neg less, nanPattern neg less = r := by
  constructor
  · intro h
    have hlow := f64IsNaN_iff.1 h
    have hhigh := f64Mag_lt r
    have hless : f64Mag r - f64InfMag - 1 < 2 ^ 52 - 2 + 1 := by
      rw [f64InfMag] at hlow ⊢
      omega
    refine ⟨f64Neg r, ⟨_, hless⟩, ?_⟩
    rw [nanPattern, show f64InfMag + 1 + (f64Mag r - f64InfMag - 1) = f64Mag r by omega, f64Pack_neg_mag]
  · rintro ⟨neg, less, rfl⟩
    rw [f64IsNaN_iff, nanPattern, f64Mag_pack (nanPattern_mag_lt less)]
    omega

theorem f64Round_le (num den : Nat) : f64Round num den ≤ f64InfMag := Nat.min_le_left _ _

/-! ## `f64Add` and `f64Div` by the classes of their operands -/

theorem f64Add_of_nan (h : f64IsNaN u = true ∨ f64IsNaN v = true) : f64Add u v = none := by
  rw [f64Add, if_pos (Bool.or_eq_true_iff.2 h)]

theorem f64Add_of_opposite (hu : f64IsInf u = true) (hv : f64IsInf v = true) (h : f64Neg u ≠ f64Neg v) :
    f64Add u v = none := by
  simp [f64Add, hu, hv, h]

theorem f64Add_of_inf_left (hu : f64IsInf u = true) (hv : f64IsNaN v = false)
    (h : f64IsInf v = true → f64Neg v = f64Neg u) : f64Add u v = some u := by
  simpa [f64Add, f64IsNaN_of_inf hu, hu, hv] using fun hv' => (h hv').symm

theorem f64Add_of_inf_right (hv : f64IsInf v = true) (hu : f64IsNaN u = false)
    (h : f64IsInf u = true → f64Neg u = f64Neg v) : f64Add u v = some v := by
  cases hinf : f64IsInf u with
  | true =>
    have huv : u = v := eq_of_neg_of_mag (h hinf) ((f64IsInf_iff.1 hinf).trans (f64IsInf_iff.1 hv).symm)
    rw [f64Add_of_inf_left hinf (f64IsNaN_of_inf hv) fun _ => (h hinf).symm, huv]
  | false => simp [f64Add, f64IsNaN_of_inf hv, hu, hv, hinf]

/-- The sign of a sum of finite values: its own, or that of a sum of zeros. -/
def sumNeg (u v : Payload) : Bool :=
  if f64Value u + f64Value v = 0 then f64Neg u && f64Neg v else decide (f64Value u + f64Value v < 0)

theorem f64Round_zero : f64Round 0 1 = 0 := by decide

theorem f64Add_of_finite (hu : f64IsFinite u = true) (hv : f64IsFinite v = true) :
    f64Add u v = some (f64Pack (sumNeg u v) (f64Round (f64Value u + f64Value v).natAbs 1)) := by
  simp only [f64Add, f64IsNaN_of_finite hu, f64IsNaN_of_finite hv, f64IsInf_of_finite hu,
    f64IsInf_of_finite hv, Bool.or_false, Bool.false_eq_true, if_false, sumNeg]
  split
  next hsum => rw [hsum, Int.natAbs_zero, f64Round_zero]
  next => rfl

theorem f64Div_of_nan (h : f64IsNaN u = true ∨ f64IsNaN v = true) : f64Div u v = none := by
  rw [f64Div, if_pos (Bool.or_eq_true_iff.2 h)]

theorem f64Div_of_infs (hu : f64IsInf u = true) (hv : f64IsInf v = true) : f64Div u v = none := by
  simp [f64Div, hu, hv]

theorem f64Div_of_inf_left (hu : f64IsInf u = true) (hv : f64IsFinite v = true) :
    f64Div u v = some (f64Pack (f64Neg u != f64Neg v) f64InfMag) := by
  simp [f64Div, f64IsNaN_of_inf hu, hu, f64IsNaN_of_finite hv, f64IsInf_of_finite hv]

theorem f64Div_of_inf_right (hu : f64IsFinite u = true) (hv : f64IsInf v = true) :
    f64Div u v = some (f64Pack (f64Neg u != f64Neg v) 0) := by
  simp [f64Div, f64IsNaN_of_inf hv, hv, f64IsNaN_of_finite hu, f64IsInf_of_finite hu]

theorem f64Div_of_finite (hu : f64IsFinite u = true) (hv : f64IsFinite v = true) :
    f64Div u v = some (f64Pack (f64Neg u != f64Neg v) (f64Round (f64Units u <<< 1074) (f64Units v))) := by
  simp [f64Div, f64IsNaN_of_finite hu, f64IsInf_of_finite hu, f64IsNaN_of_finite hv, f64IsInf_of_finite hv]

/-! ## Which results are NaNs -/

/-- R193's list for a sum. -/
def InvalidSum (u v : Payload) : Prop :=
  f64IsNaN u = true ∨ f64IsNaN v = true ∨ (f64IsInf u = true ∧ f64IsInf v = true ∧ f64Neg u ≠ f64Neg v)

/-- R193's list for a quotient by a divisor that is no zero. -/
def InvalidQuotient (u v : Payload) : Prop :=
  f64IsNaN u = true ∨ f64IsNaN v = true ∨ (f64IsInf u = true ∧ f64IsInf v = true)

theorem inf_or_finite_of_not_nan (h : ¬f64IsNaN v = true) : f64IsInf v = true ∨ f64IsFinite v = true :=
  (nan_or_inf_or_finite v).resolve_left h

theorem f64Add_of_invalid (h : InvalidSum u v) : f64Add u v = none := by
  obtain hu | hv | ⟨hu, hv, hneg⟩ := h
  · exact f64Add_of_nan (.inl hu)
  · exact f64Add_of_nan (.inr hv)
  · exact f64Add_of_opposite hu hv hneg

theorem f64Add_of_valid (h : ¬InvalidSum u v) : ∃ r, f64Add u v = some r ∧ f64IsNaN r = false := by
  simp only [InvalidSum, not_or, not_and, not_ne_iff] at h
  obtain ⟨hu, hv, hinf⟩ := h
  obtain hu' | hu' := inf_or_finite_of_not_nan hu
  · have hr := f64Add_of_inf_left hu' (Bool.eq_false_iff.2 hv) fun hv' => (hinf hu' hv').symm
    exact ⟨u, hr, f64IsNaN_of_inf hu'⟩
  obtain hv' | hv' := inf_or_finite_of_not_nan hv
  · have hr := f64Add_of_inf_right hv' (Bool.eq_false_iff.2 hu) fun hu' => hinf hu' hv'
    exact ⟨v, hr, f64IsNaN_of_inf hv'⟩
  · exact ⟨_, f64Add_of_finite hu' hv', f64IsNaN_pack (f64Round_le _ _)⟩

theorem f64Div_of_invalid (h : InvalidQuotient u v) : f64Div u v = none := by
  obtain hu | hv | ⟨hu, hv⟩ := h
  · exact f64Div_of_nan (.inl hu)
  · exact f64Div_of_nan (.inr hv)
  · exact f64Div_of_infs hu hv

theorem f64Div_of_valid (h : ¬InvalidQuotient u v) : ∃ r, f64Div u v = some r ∧ f64IsNaN r = false := by
  simp only [InvalidQuotient, not_or, not_and] at h
  obtain ⟨hu, hv, hinf⟩ := h
  obtain hu | hu := inf_or_finite_of_not_nan hu
  · obtain hv | hv := inf_or_finite_of_not_nan hv
    · exact absurd hv (hinf hu)
    · exact ⟨_, f64Div_of_inf_left hu hv, f64IsNaN_pack le_rfl⟩
  · obtain hv | hv := inf_or_finite_of_not_nan hv
    · exact ⟨_, f64Div_of_inf_right hu hv, f64IsNaN_pack (Nat.zero_le _)⟩
    · exact ⟨_, f64Div_of_finite hu hv, f64IsNaN_pack (f64Round_le _ _)⟩

/-- An answer that is none on an invalid operation, and some value that is no NaN on any other. -/
theorem none_iff_and_not_nan {P : Prop} {o : Option Payload} (hinv : P → o = none)
    (hval : ¬P → ∃ r, o = some r ∧ f64IsNaN r = false) :
    (o = none ↔ P) ∧ ∀ r, o = some r → f64IsNaN r = false := by
  by_cases h : P
  · simp [hinv h, h]
  · obtain ⟨r, rfl, hr⟩ := hval h
    simp [h, hr]

theorem f64Lt_of_nan (h : f64IsNaN u = true ∨ f64IsNaN v = true) : f64Lt u v = false := by
  obtain h | h := h <;> simp [f64Lt, h]

/-- Settles O26: the operands' classes decide whether there is a result, and a result is an operand or is packed
from a magnitude no larger than the infinity's. -/
theorem naNResultsAreTheInvalidOnes : Obligations.NaNResultsAreTheInvalidOnes := by
  have hadd (u v) := none_iff_and_not_nan (f64Add_of_invalid (u := u) (v := v)) f64Add_of_valid
  have hdiv (u v) := none_iff_and_not_nan (f64Div_of_invalid (u := u) (v := v)) f64Div_of_valid
  exact ⟨fun u v => (hadd u v).1, fun u v _ => (hdiv u v).1, fun u v => (hadd u v).2, fun u v => (hdiv u v).2,
    fun _ _ => f64Lt_of_nan, fun _ => f64IsNaN_iff_nanPattern⟩

/-! ## The instructions of two float sources -/

theorem wroteRegister_setSlot_nextDraw_advance (ha : Active s f callers) (hw : w < f.size) (x : Slot) :
    WroteRegister s f callers w x 1 (s.setSlot (f.base + w) x).nextDraw.advance :=
  { wroteRegister_setSlot_advance ha hw x with
    unit := ⟨rfl, rfl, rfl, rfl, State.regfileSize_setSlot ..⟩
    draws := rfl }

/-- Where the operation answers a slot, that slot is written, a draw is taken and nothing else changes. -/
theorem floatBinary_wrote {op : Payload → Payload → Except FaultKind Slot} {x : Slot}
    (ha : Active s f callers) (hw : w < f.size) (hsrc : FloatSources s f p q u v) (hop : op u v = .ok x) :
    ∃ t, floatBinary w p q op State.nextDraw s = .next t ∧ WroteRegister s f callers w x 1 t :=
  ⟨_, floatBinary_of_ok ha.stack hw hsrc.first hsrc.second hsrc.firstSlot hsrc.secondSlot hop,
    wroteRegister_setSlot_nextDraw_advance ha hw x⟩

/-- `FAdd` writes its sum, or the drawn NaN. -/
theorem exec_fAdd_wrote (ha : Active s f callers) (hw : w < f.size) (hsrc : FloatSources s f p q u v) :
    ∃ t, exec (.fAdd w p q) s = .next t ∧
      WroteRegister s f callers w (.float (s.orDrawnNaN (f64Add u v))) 1 t :=
  floatBinary_wrote ha hw hsrc rfl

/-- `FDiv` by a divisor that is no zero writes its quotient, or the drawn NaN. -/
theorem exec_fDiv_wrote (ha : Active s f callers) (hw : w < f.size) (hsrc : FloatSources s f p q u v)
    (hv : ¬f64IsZero v = true) :
    ∃ t, exec (.fDiv w p q) s = .next t ∧
      WroteRegister s f callers w (.float (s.orDrawnNaN (f64Div u v))) 1 t :=
  floatBinary_wrote ha hw hsrc (by rw [raiseIf_of_not hv, except_ok_bind, except_pure])

theorem exec_fDiv_faulted (hs : s.stack = f :: callers) (hw : w < f.size) (hsrc : FloatSources s f p q u v)
    (hv : f64IsZero v = true) : exec (.fDiv w p q) s = .next (faulted s f callers .arithmeticFault) := by
  rw [← raise_eq_faulted hs]
  exact floatBinary_of_error hs hw hsrc.first hsrc.second hsrc.firstSlot hsrc.secondSlot
    (by rw [raiseIf_of hv, except_error_bind])

/-- What is written is the result, or some NaN where there is none. -/
theorem orDrawnNaN_spec (s : State) (o : Option Payload) :
    o = some (s.orDrawnNaN o) ∨ (o = none ∧ f64IsNaN (s.orDrawnNaN o) = true) := by
  cases o with
  | some r => exact .inl rfl
  | none => exact .inr ⟨rfl, f64IsNaN_iff_nanPattern.2 ⟨_, _, rfl⟩⟩

/-- Settles O23. -/
theorem fAddWritesSumOrNaN : Obligations.FAddWritesSumOrNaN := by
  intro s f callers w p q u v ha hw hsrc
  obtain ⟨t, hexec, hwrote⟩ := exec_fAdd_wrote ha hw hsrc
  exact ⟨t, _, hexec, hwrote, orDrawnNaN_spec s _⟩

/-- Settles O24: the check of the divisor, which catches the two zeros, comes before the write. -/
theorem fDivWritesQuotientOrFaults : Obligations.FDivWritesQuotientOrFaults := by
  intro s f callers w p q u v ha hw hsrc
  refine ⟨fun hpos hneg => ?_, fun hzero => exec_fDiv_faulted ha.stack hw hsrc (f64IsZero_iff_eq.2 hzero)⟩
  obtain ⟨t, hexec, hwrote⟩ := exec_fDiv_wrote ha hw hsrc (mt f64IsZero_iff_eq.1 (not_or.2 ⟨hpos, hneg⟩))
  exact ⟨t, _, hexec, hwrote, orDrawnNaN_spec s _⟩

theorem exec_fAdd_wrote_sum (ha : Active s f callers) (hw : w < f.size) (hsrc : FloatSources s f p q u v)
    (hr : f64Add u v = some r) :
    ∃ t, exec (.fAdd w p q) s = .next t ∧ WroteRegister s f callers w (.float r) 1 t := by
  simpa only [hr, State.orDrawnNaN, Option.getD_some] using exec_fAdd_wrote ha hw hsrc

theorem exec_fDiv_wrote_quotient (ha : Active s f callers) (hw : w < f.size)
    (hsrc : FloatSources s f p q u v) (hv : ¬f64IsZero v = true) (hr : f64Div u v = some r) :
    ∃ t, exec (.fDiv w p q) s = .next t ∧ WroteRegister s f callers w (.float r) 1 t := by
  simpa only [hr, State.orDrawnNaN, Option.getD_some] using exec_fDiv_wrote ha hw hsrc hv

theorem f64Pack_bne (a b : Bool) (n : Nat) :
    f64Pack (a != b) n = if a = b then f64Pack false n else f64Pack true n := by
  split
  next h => rw [h, bne_self_eq_false]
  next h => rw [bne_iff_ne.2 h]

/-- An infinity is no zero. -/
theorem f64IsZero_of_inf (h : f64IsInf v = true) : ¬f64IsZero v = true := by
  rw [f64IsZero_iff, f64IsInf_iff.1 h]
  decide

/-- Settles O60: each clause is one equation of `f64Add` or `f64Div`. -/
theorem infiniteOperandsGiveInfinitiesOrZeros : Obligations.InfiniteOperandsGiveInfinitiesOrZeros := by
  intro s f callers w p q u v ha hw hsrc
  refine ⟨fun hu hv hneg => ?_, fun hv hu hneg => ?_, fun hu hv => ?_, fun hu hv hzero => ?_⟩
  · exact exec_fAdd_wrote_sum ha hw hsrc (f64Add_of_inf_left hu hv hneg)
  · exact exec_fAdd_wrote_sum ha hw hsrc (f64Add_of_inf_right hv hu hneg)
  · refine exec_fDiv_wrote_quotient ha hw hsrc (f64IsZero_of_inf hv) ?_
    rw [f64Div_of_inf_right hu hv, f64Pack_bne]
    rfl
  · refine exec_fDiv_wrote_quotient ha hw hsrc (Bool.eq_false_iff.1 hzero) ?_
    rw [f64Div_of_inf_left hu hv, f64Pack_bne]
    rfl

/-! ## Sums that are exactly zero -/

theorem f64Value_of_neg (h : f64Neg v = true) : f64Value v = -(f64Units v : Int) := if_pos h

/-- Only the zeros have no units. -/
theorem f64Units_eq_zero_iff : f64Units v = 0 ↔ f64Mag v = 0 := by
  rw [f64Units, f64Exp, f64Frac]
  split
  next h => omega
  next h =>
    rw [Nat.shiftLeft_eq]
    have : 0 < (2 ^ 52 + f64Mag v % 2 ^ 52) * 2 ^ (f64Mag v / 2 ^ 52 - 1) := by positivity
    omega

theorem negZero_iff : v = 0x8000000000000000 ↔ f64Neg v = true ∧ f64Mag v = 0 := by
  constructor
  · rintro rfl
    decide
  · rintro ⟨hneg, hmag⟩
    exact eq_of_neg_of_mag (hneg.trans rfl) (hmag.trans rfl)

/-- Two values of one sign only add to zero where both are zero. -/
theorem f64Neg_and_eq (hsum : f64Value u + f64Value v = 0) :
    (f64Neg u && f64Neg v) = decide (u = 0x8000000000000000 ∧ v = 0x8000000000000000) := by
  rw [Bool.eq_iff_iff, Bool.and_eq_true, decide_eq_true_iff, negZero_iff, negZero_iff]
  refine ⟨fun ⟨hu, hv⟩ => ?_, fun ⟨⟨hu, _⟩, hv, _⟩ => ⟨hu, hv⟩⟩
  rw [f64Value_of_neg hu, f64Value_of_neg hv] at hsum
  exact ⟨⟨hu, f64Units_eq_zero_iff.1 (by omega)⟩, hv, f64Units_eq_zero_iff.1 (by omega)⟩

/-- Settles O29: such a sum is negative zero exactly where both operands carry a sign. -/
theorem fAddZeroSums : Obligations.FAddZeroSums := by
  intro u v hu hv hsum
  rw [f64Add_of_finite hu hv, sumNeg, if_pos hsum, hsum, Int.natAbs_zero, f64Round_zero, f64Neg_and_eq hsum]
  split
  next h => rw [decide_eq_true h]; rfl
  next h => rw [decide_eq_false h]; rfl

/-! ## The nearest integer, ties to even -/

/-- `n` is within a half of `z`, and even at exactly a half. -/
structure NearestEven (z : ℚ) (n : ℤ) : Prop where
  near : |z - n| ≤ 1 / 2
  even : |z - n| = 1 / 2 → Even n

theorem nearestEven_of_lt {z : ℚ} {n : ℤ} (h : |z - n| < 1 / 2) : NearestEven z n :=
  ⟨h.le, fun heq => absurd heq h.ne⟩

theorem nearestEven_neg {z : ℚ} {n : ℤ} (h : NearestEven z n) : NearestEven (-z) (-n) := by
  have habs : |-z - ((-n : ℤ) : ℚ)| = |z - n| := by
    rw [Int.cast_neg, neg_sub_neg, abs_sub_comm]
  exact ⟨habs ▸ h.near, fun heq => (h.even (habs ▸ heq)).neg⟩

/-- No other integer is nearer, and an odd one is the only nearest. -/
theorem nearestEven_le {z : ℚ} {n : ℤ} (h : NearestEven z n) (k : ℤ) :
    |z - n| ≤ |z - k| ∧ (|z - n| = |z - k| → k ≠ n → Even n) := by
  obtain rfl | hk := eq_or_ne k n
  · exact ⟨le_rfl, fun _ hne => absurd rfl hne⟩
  have hgap : (1 : ℚ) ≤ |(n : ℚ) - k| := by
    exact_mod_cast Int.one_le_abs (sub_ne_zero.2 hk.symm)
  have htri : |(n : ℚ) - k| ≤ |z - n| + |z - k| := by
    rw [abs_sub_comm z n]
    exact abs_sub_le _ _ _
  have hnear := h.near
  exact ⟨by linarith, fun heq _ => h.even (by linarith)⟩

theorem cast_div_eq_add (num : Nat) (hden : 0 < den) :
    (num : ℚ) / den = (num / den : Nat) + ((num % den : Nat) : ℚ) / den := by
  have hnum : (num : ℚ) = den * (num / den : Nat) + (num % den : Nat) := by
    exact_mod_cast (Nat.div_add_mod num den).symm
  conv_lhs => rw [hnum]
  rw [add_div, mul_div_cancel_left₀ _ (Nat.cast_ne_zero.2 hden.ne')]

/-- What `divNearestEven` computes is the nearest integer, by whether the remainder is below, above or at a
half of the divisor. -/
theorem divNearestEven_nearest (num : Nat) (hden : 0 < den) :
    NearestEven ((num : ℚ) / den) (divNearestEven num den) := by
  rw [cast_div_eq_add num hden, divNearestEven]
  generalize num / den = a
  have hlt : num % den < den := Nat.mod_lt _ hden
  generalize num % den = b at hlt ⊢
  have hden' : (0 : ℚ) < den := Nat.cast_pos.2 hden
  have hfrac : (b : ℚ) / den * den = b := div_mul_cancel₀ _ hden'.ne'
  have hnonneg : 0 ≤ (b : ℚ) / den := by positivity
  generalize (b : ℚ) / den = x at hfrac hnonneg
  split
  next hlow =>
    have hlow' : 2 * (b : ℚ) < den := by exact_mod_cast hlow
    have hx : x < 1 / 2 := by nlinarith
    exact nearestEven_of_lt (abs_lt.2 ⟨by push_cast; linarith, by push_cast; linarith⟩)
  next hlow =>
    split
    next hhigh =>
      have hhigh' : (den : ℚ) < 2 * b := by exact_mod_cast hhigh
      have hlt' : (b : ℚ) < den := by exact_mod_cast hlt
      have hx : 1 / 2 < x := by nlinarith
      have hx1 : x < 1 := by nlinarith
      exact nearestEven_of_lt (abs_lt.2 ⟨by push_cast; linarith, by push_cast; linarith⟩)
    next hhigh =>
      have hhalf : 2 * (b : ℚ) = den := by exact_mod_cast (by omega : 2 * b = den)
      have hx : x = 1 / 2 := by nlinarith
      have heven : Even ((a + a % 2 : Nat) : ℤ) := (Int.even_coe_nat _).2 (Nat.even_iff.2 (by omega))
      refine ⟨?_, fun _ => heven⟩
      have hparity : ((a % 2 : Nat) : ℚ) = 0 ∨ ((a % 2 : Nat) : ℚ) = 1 := by
        exact_mod_cast Nat.mod_two_eq_zero_or_one a
      rw [Int.cast_natCast, Nat.cast_add, abs_le]
      obtain ha | ha := hparity <;> constructor <;> linarith

theorem divNearestEven_le (num den : Nat) : divNearestEven num den ≤ num / den + 1 := by
  rw [divNearestEven]
  split <;> [skip; split] <;> omega

theorem le_divNearestEven (num den : Nat) : num / den ≤ divNearestEven num den := by
  rw [divNearestEven]
  split <;> [skip; split] <;> omega

/-- Above an odd number `k` the rounding begins at `k` and a half, the half included. -/
theorem lt_divNearestEven_iff_of_odd {k : Nat} (hk : k % 2 = 1) (hden : 0 < den) :
    k < divNearestEven num den ↔ (2 * k + 1) * den ≤ 2 * num := by
  have hdouble : (2 * k + 1) * den = 2 * (k * den) + den := by ring
  have hle := divNearestEven_le num den
  have hge := le_divNearestEven num den
  obtain hquot | rfl | hquot := lt_trichotomy (num / den) k
  · have hnum : num < k * den := (Nat.div_lt_iff_lt_mul hden).1 hquot
    exact iff_of_false (by omega) (by omega)
  · have hnum : num = num / den * den + num % den := (Nat.div_add_mod' num den).symm
    rw [hdouble, divNearestEven]
    split <;> [skip; split] <;> omega
  · have hnum : (k + 1) * den ≤ num := (Nat.le_div_iff_mul_le hden).1 hquot
    rw [Nat.succ_mul] at hnum
    exact iff_of_true (by omega) (by omega)

/-! ## The units of a magnitude pattern -/

/-- `f64Units` as a function of the magnitude pattern. -/
def magUnits (m : Nat) : Nat :=
  if m / 2 ^ 52 = 0 then m % 2 ^ 52 else (2 ^ 52 + m % 2 ^ 52) * 2 ^ (m / 2 ^ 52 - 1)

theorem f64Units_eq_magUnits (v : Payload) : f64Units v = magUnits (f64Mag v) := by
  rw [f64Units, Nat.shiftLeft_eq]
  rfl

/-- A significand `sig` in the binade of `shift` stands for `sig * 2 ^ shift` units, also where it has carried
into the next binade. -/
theorem magUnits_of_significand {shift sig : Nat} (hhigh : sig ≤ 2 ^ 53)
    (hlow : shift = 0 ∨ 2 ^ 52 ≤ sig) :
    magUnits (shift * 2 ^ 52 + sig) = sig * 2 ^ shift := by
  rw [magUnits]
  obtain hsub | ⟨hnormal, hcarry⟩ | rfl :
      sig < 2 ^ 52 ∨ (2 ^ 52 ≤ sig ∧ sig < 2 ^ 53) ∨ sig = 2 ^ 53 := by omega
  · obtain rfl : shift = 0 := by omega
    rw [if_pos (by omega), pow_zero]
    omega
  · rw [if_neg (by omega), show (shift * 2 ^ 52 + sig) / 2 ^ 52 - 1 = shift by omega,
      show 2 ^ 52 + (shift * 2 ^ 52 + sig) % 2 ^ 52 = sig by omega]
  · rw [if_neg (by omega), show (shift * 2 ^ 52 + 2 ^ 53) / 2 ^ 52 - 1 = shift + 1 by omega,
      show (shift * 2 ^ 52 + 2 ^ 53) % 2 ^ 52 = 0 by omega]
    ring

/-- A value is a multiple of the unit of a binade, or lies below that binade. -/
theorem dvd_magUnits_or_lt (m shift : Nat) :
    2 ^ shift ∣ magUnits m ∨ (0 < shift ∧ magUnits m < 2 ^ 52 * 2 ^ shift) := by
  obtain rfl | hshift := Nat.eq_zero_or_pos shift
  · exact .inl (one_dvd _)
  have hfrac : m % 2 ^ 52 < 2 ^ 52 := Nat.mod_lt _ (by decide)
  rw [magUnits]
  split
  next => exact .inr ⟨hshift, hfrac.trans_le (Nat.le_mul_of_pos_right _ (Nat.two_pow_pos _))⟩
  next hexp =>
    obtain hbelow | habove := Nat.lt_or_ge shift (m / 2 ^ 52)
    · exact .inl ((Nat.pow_dvd_pow 2 (by omega)).mul_left _)
    · refine .inr ⟨hshift, ?_⟩
      calc (2 ^ 52 + m % 2 ^ 52) * 2 ^ (m / 2 ^ 52 - 1)
          < 2 ^ 53 * 2 ^ (m / 2 ^ 52 - 1) := Nat.mul_lt_mul_of_pos_right (by omega) (Nat.two_pow_pos _)
        _ = 2 ^ 52 * 2 ^ (m / 2 ^ 52) := by rw [← pow_add, ← pow_add]; congr 1; omega
        _ ≤ 2 ^ 52 * 2 ^ shift := Nat.mul_le_mul_left _ (Nat.pow_le_pow_right two_pos habove)

/-! ## What `f64Round` computes -/

/-- The binade `f64Round` rounds in: the unit of its significand is `2 ^ roundShift` units of 2^-1074. -/
def roundShift (num den : Nat) : Nat := Nat.log2 (num / den) - 52

/-- The significand `f64Round` computes. -/
def roundSig (num den : Nat) : Nat := divNearestEven num (den * 2 ^ roundShift num den)

theorem f64Round_eq (num den : Nat) :
    f64Round num den = min f64InfMag (roundShift num den * 2 ^ 52 + roundSig num den) := by
  simp only [f64Round, roundSig, roundShift, Nat.shiftLeft_eq]

theorem f64Round_lt_iff :
    f64Round num den < f64InfMag ↔ roundShift num den * 2 ^ 52 + roundSig num den < f64InfMag := by
  rw [f64Round_eq]
  omega

theorem f64Round_of_lt (h : f64Round num den < f64InfMag) :
    f64Round num den = roundShift num den * 2 ^ 52 + roundSig num den := by
  rw [f64Round_eq] at h ⊢
  omega

/-- The exact value lies below the end of its binade. -/
theorem lt_of_roundShift (num : Nat) (hden : 0 < den) : num < 2 ^ 53 * (den * 2 ^ roundShift num den) := by
  have hlog : num / den < 2 ^ (Nat.log2 (num / den) + 1) := Nat.lt_log2_self
  have hbinade : num / den < 2 ^ (53 + roundShift num den) :=
    hlog.trans_le (Nat.pow_le_pow_right two_pos (by rw [roundShift]; omega))
  calc num < 2 ^ (53 + roundShift num den) * den := (Nat.div_lt_iff_lt_mul hden).1 hbinade
    _ = _ := by ring

/-- It lies above the start of it, except in the lowest binade, which holds the subnormals. -/
theorem le_of_roundShift (hden : 0 < den) (hshift : 0 < roundShift num den) :
    2 ^ 52 * (den * 2 ^ roundShift num den) ≤ num := by
  have hlog : num / den ≠ 0 := by
    intro h
    simp [roundShift, h] at hshift
  have hbinade : 2 ^ (52 + roundShift num den) ≤ num / den := by
    refine (Nat.le_log2 hlog).1 ?_
    rw [roundShift] at hshift ⊢
    omega
  calc _ = 2 ^ (52 + roundShift num den) * den := by ring
    _ ≤ num := (Nat.le_div_iff_mul_le hden).1 hbinade

theorem roundSig_le (num : Nat) (hden : 0 < den) : roundSig num den ≤ 2 ^ 53 :=
  (divNearestEven_le _ _).trans
    ((Nat.div_lt_iff_lt_mul (Nat.mul_pos hden (Nat.two_pow_pos _))).2 (lt_of_roundShift num hden))

theorem roundShift_eq_zero_or_le_roundSig (num : Nat) (hden : 0 < den) :
    roundShift num den = 0 ∨ 2 ^ 52 ≤ roundSig num den :=
  (Nat.eq_zero_or_pos _).imp_right fun hshift =>
    ((Nat.le_div_iff_mul_le (Nat.mul_pos hden (Nat.two_pow_pos _))).2 (le_of_roundShift hden hshift)).trans
      (le_divNearestEven _ _)

/-- A rounded magnitude short of the infinity's stands for its significand in its binade. -/
theorem magUnits_f64Round (hden : 0 < den) (h : f64Round num den < f64InfMag) :
    magUnits (f64Round num den) = roundSig num den * 2 ^ roundShift num den := by
  rw [f64Round_of_lt h]
  exact magUnits_of_significand (roundSig_le num hden) (roundShift_eq_zero_or_le_roundSig num hden)

/-- A rounded significand carries out of its binade from `2 ^ 53 - 1 / 2` on, since `2 ^ 53 - 1` is odd. -/
theorem roundSig_lt_iff (hden : 0 < den) :
    roundSig num den < 2 ^ 53 ↔ 2 * num < (2 ^ 54 - 1) * (den * 2 ^ roundShift num den) := by
  have h := lt_divNearestEven_iff_of_odd (num := num) (k := 2 ^ 53 - 1) (by decide)
    (Nat.mul_pos hden (Nat.two_pow_pos (roundShift num den)))
  rw [← roundSig] at h
  omega

theorem lt_of_roundShift_le {e : Nat} (hden : 0 < den) (h : roundShift num den ≤ e) :
    num < (2 ^ 54 - 1) * 2 ^ e * den :=
  calc num < 2 ^ 53 * (den * 2 ^ roundShift num den) := lt_of_roundShift num hden
    _ ≤ (2 ^ 54 - 1) * (den * 2 ^ e) :=
      Nat.mul_le_mul (by decide) (Nat.mul_le_mul_left _ (Nat.pow_le_pow_right two_pos h))
    _ = _ := by ring

theorem roundSig_lt_iff_of_roundShift_eq {e : Nat} (hden : 0 < den) (h : roundShift num den = e + 1) :
    roundSig num den < 2 ^ 53 ↔ num < (2 ^ 54 - 1) * 2 ^ e * den := by
  have hunits : (2 ^ 54 - 1) * (den * 2 ^ (e + 1)) = 2 * ((2 ^ 54 - 1) * 2 ^ e * den) := by ring
  rw [roundSig_lt_iff hden, h, hunits, Nat.mul_lt_mul_left two_pos]

theorem le_of_lt_roundShift {e : Nat} (hden : 0 < den) (h : e + 1 < roundShift num den) :
    (2 ^ 54 - 1) * 2 ^ e * den ≤ num :=
  calc (2 ^ 54 - 1) * 2 ^ e * den ≤ 2 ^ 54 * 2 ^ e * den :=
        Nat.mul_le_mul_right _ (Nat.mul_le_mul_right _ (by decide))
    _ = 2 ^ 52 * (den * 2 ^ (e + 2)) := by ring
    _ ≤ 2 ^ 52 * (den * 2 ^ roundShift num den) :=
      Nat.mul_le_mul_left _ (Nat.mul_le_mul_left _ (Nat.pow_le_pow_right two_pos h))
    _ ≤ num := le_of_roundShift hden (Nat.zero_lt_of_lt h)

/-- The rounding stays finite exactly below IEEE 754's threshold, half a unit in the last place beyond the
largest finite value, which lies in binade 2045. -/
theorem f64Round_lt_iff_threshold (hden : 0 < den) :
    f64Round num den < f64InfMag ↔ num < (2 ^ 54 - 1) * 2 ^ 2044 * den := by
  have hsig := roundSig_le num hden
  rw [f64Round_lt_iff, f64InfMag]
  obtain hshift | hshift | hshift := lt_trichotomy (roundShift num den) (2044 + 1)
  · exact iff_of_true (by omega) (lt_of_roundShift_le hden (Nat.le_of_lt_succ hshift))
  · rw [← roundSig_lt_iff_of_roundShift_eq hden hshift]
    omega
  · have hlow := (roundShift_eq_zero_or_le_roundSig num hden).resolve_left (by omega)
    exact iff_of_false (by omega) (Nat.not_lt.2 (le_of_lt_roundShift hden hshift))

/-! ## Correct rounding -/

/-- `r` is the binary64 value of the exact `y`, counted in units of 2^-1074: R190's rounding, with the overflow
of log 15. -/
structure CorrectlyRounded (y : ℚ) (r : Payload) : Prop where
  finite_iff : f64IsFinite r = true ↔ |y| < (2 ^ 54 - 1) * 2 ^ 2044
  inf : f64IsFinite r = false → f64IsInf r = true
  nearest : f64IsFinite r = true → ∀ x, f64IsFinite x = true →
    |y - f64Value r| ≤ |y - f64Value x| ∧
    (|y - f64Value r| = |y - f64Value x| → f64Value x ≠ f64Value r → r.getLsbD 0 = false)

/-- In the scale of a binade, the nearest multiple of its unit is at least as near as any multiple, and nearer
than what lies below a multiple `bound` that is no farther out than the exact value. -/
theorem nearestEven_scaled {z unit y : ℚ} {n bound : ℤ} (h : NearestEven z n) (hunit : 0 < unit)
    (hy : (∃ k : ℤ, y = k * unit) ∨ (bound ≤ |z| ∧ |y| < bound * unit)) :
    |z * unit - n * unit| ≤ |z * unit - y| ∧
      (|z * unit - n * unit| = |z * unit - y| → y ≠ n * unit → Even n) := by
  have hscale (a : ℚ) : |z * unit - a * unit| = |z - a| * unit := by
    rw [← sub_mul, abs_mul, abs_of_pos hunit]
  obtain ⟨k, rfl⟩ | ⟨hbound, hbelow⟩ := hy
  · obtain ⟨hle, heven⟩ := nearestEven_le h k
    rw [hscale, hscale, mul_le_mul_iff_left₀ hunit, mul_left_inj' hunit.ne']
    exact ⟨hle, fun heq hne => heven heq fun hk => hne (hk ▸ rfl)⟩
  · have hnear : |z - n| ≤ |z| - bound := by
      obtain ⟨habs, hz⟩ | ⟨habs, hz⟩ := abs_cases z
      · have := (nearestEven_le h bound).1
        rw [abs_of_nonneg (by linarith : 0 ≤ z - bound)] at this
        linarith
      · have := (nearestEven_le h (-bound)).1
        push_cast at this
        rw [abs_of_nonpos (by linarith : z - -(bound : ℚ) ≤ 0)] at this
        linarith
    have hlt : |z * unit - n * unit| < |z * unit - y| :=
      calc |z * unit - n * unit| = |z - n| * unit := hscale n
        _ ≤ (|z| - bound) * unit := mul_le_mul_of_nonneg_right hnear hunit.le
        _ < |z * unit| - |y| := by rw [abs_mul, abs_of_pos hunit]; linarith
        _ ≤ |z * unit - y| := abs_sub_abs_le_abs_sub _ _
    exact ⟨hlt.le, fun heq => absurd heq hlt.ne⟩

/-- The sign as a factor. -/
def signOf (neg : Bool) : ℤ := if neg then -1 else 1

theorem f64Value_eq (v : Payload) : f64Value v = signOf (f64Neg v) * magUnits (f64Mag v) := by
  rw [f64Value, f64Units_eq_magUnits, signOf]
  split <;> ring

theorem abs_signOf_mul (neg : Bool) (a : ℚ) : |signOf neg * a| = |a| := by
  cases neg <;> simp [signOf]

theorem nearestEven_signOf_mul {z : ℚ} {n : ℤ} (h : NearestEven z n) (neg : Bool) :
    NearestEven (signOf neg * z) (signOf neg * n) := by
  cases neg
  · simpa [signOf] using h
  · simpa [signOf] using nearestEven_neg h

theorem even_of_even_signOf_mul {n : Nat} (h : Even (signOf neg * n)) : Even n := by
  cases neg <;> simpa [signOf] using h

theorem f64Mag_pack_round (neg : Bool) (num den : Nat) :
    f64Mag (f64Pack neg (f64Round num den)) = f64Round num den :=
  f64Mag_pack ((f64Round_le num den).trans_lt f64InfMag_lt)

/-- A packed magnitude's last bit is the parity of its significand. -/
theorem getLsbD_pack_round (h : f64Round num den < f64InfMag) (heven : Even (roundSig num den)) :
    (f64Pack neg (f64Round num den)).getLsbD 0 = false := by
  rw [BitVec.getLsbD, f64Pack_toNat (h.trans f64InfMag_lt), f64Round_of_lt h, Nat.testBit_zero,
    decide_eq_false_iff_not]
  have := Nat.even_iff.1 heven
  split <;> omega

theorem threshold_pos (e : Nat) : 0 < (2 ^ 54 - 1) * 2 ^ e := Nat.mul_pos (by decide) (Nat.two_pow_pos e)

theorem cast_threshold (e : Nat) : (((2 ^ 54 - 1) * 2 ^ e : Nat) : ℚ) = (2 ^ 54 - 1) * 2 ^ e := by
  norm_num

theorem finite_pack_round_iff (hden : 0 < den) :
    f64IsFinite (f64Pack neg (f64Round num den)) = true ↔
      |signOf neg * ((num : ℚ) / den)| < (2 ^ 54 - 1) * 2 ^ 2044 := by
  have hden' : (0 : ℚ) < den := Nat.cast_pos.2 hden
  rw [f64IsFinite_iff, f64Mag_pack_round, f64Round_lt_iff_threshold hden, abs_signOf_mul,
    abs_of_nonneg (by positivity), div_lt_iff₀ hden', ← Nat.cast_lt (α := ℚ),
    Nat.cast_mul, cast_threshold]

/-- Every binary64 value is a multiple of the rounding's unit, or lies below the rounding's binade. -/
theorem f64Value_multiple_or_below (x : Payload) (neg : Bool) (num : Nat) (hden : 0 < den) :
    (∃ k : ℤ, (f64Value x : ℚ) = k * 2 ^ roundShift num den) ∨
      (((2 ^ 52 : ℤ) : ℚ) ≤ |signOf neg * ((num : ℚ) / (den * 2 ^ roundShift num den : Nat))| ∧
        |(f64Value x : ℚ)| < (2 ^ 52 : ℤ) * 2 ^ roundShift num den) := by
  rw [f64Value_eq]
  obtain ⟨c, hc⟩ | ⟨hshift, hlt⟩ := dvd_magUnits_or_lt (f64Mag x) (roundShift num den)
  · refine .inl ⟨signOf (f64Neg x) * c, ?_⟩
    rw [hc]
    push_cast
    ring
  · have hlow := le_of_roundShift hden hshift
    have hpos : 0 < den * 2 ^ roundShift num den := Nat.mul_pos hden (Nat.two_pow_pos _)
    refine .inr ⟨?_, ?_⟩
    · rw [abs_signOf_mul, abs_of_nonneg (by positivity), le_div_iff₀ (Nat.cast_pos.2 hpos)]
      exact_mod_cast hlow
    · rw [Int.cast_mul, abs_signOf_mul, Int.cast_natCast, Nat.abs_cast]
      exact_mod_cast hlt

/-- A rounded value is its significand, with its sign, in the unit of its binade. -/
theorem f64Value_pack_round (hden : 0 < den) (h : f64Round num den < f64InfMag) :
    (f64Value (f64Pack neg (f64Round num den)) : ℚ) =
      (signOf neg * roundSig num den : ℤ) * 2 ^ roundShift num den := by
  rw [f64Value_eq, f64Neg_pack (h.trans f64InfMag_lt), f64Mag_pack_round, magUnits_f64Round hden h]
  push_cast
  ring

theorem signOf_mul_div_eq_scaled (neg : Bool) (num den shift : Nat) :
    (signOf neg : ℚ) * ((num : ℚ) / den) =
      signOf neg * ((num : ℚ) / (den * 2 ^ shift : Nat)) * 2 ^ shift := by
  push_cast
  field_simp

/-- R190: packing a sign and the rounded ratio of two natural numbers is rounding correctly. -/
theorem correctlyRounded_pack_round (neg : Bool) (num : Nat) (hden : 0 < den) :
    CorrectlyRounded (signOf neg * ((num : ℚ) / den)) (f64Pack neg (f64Round num den)) where
  finite_iff := finite_pack_round_iff hden
  inf h := by
    rw [← Bool.not_eq_true, f64IsFinite_iff, f64Mag_pack_round] at h
    rw [f64IsInf_iff, f64Mag_pack_round]
    exact (f64Round_le num den).antisymm (Nat.not_lt.1 h)
  nearest h x _ := by
    rw [f64IsFinite_iff, f64Mag_pack_round] at h
    have hsig : NearestEven _ (roundSig num den) :=
      divNearestEven_nearest num (Nat.mul_pos hden (Nat.two_pow_pos (roundShift num den)))
    obtain ⟨hle, heven⟩ := nearestEven_scaled (nearestEven_signOf_mul hsig neg) (by positivity)
      (f64Value_multiple_or_below x neg num hden)
    rw [signOf_mul_div_eq_scaled neg num den (roundShift num den), f64Value_pack_round hden h]
    refine ⟨hle, fun heq hne => getLsbD_pack_round h (even_of_even_signOf_mul (heven heq ?_))⟩
    exact fun hx => hne (Int.cast_injective (hx.trans (f64Value_pack_round hden h).symm))

/-! ## The two operations round the exact result -/

/-- The exact sum has the packed sign, in the case of zero whichever sign that is. -/
theorem f64Value_add_eq_signOf (u v : Payload) :
    f64Value u + f64Value v = signOf (sumNeg u v) * (f64Value u + f64Value v).natAbs := by
  rw [sumNeg]
  generalize f64Value u + f64Value v = sum
  split
  next hzero => simp [hzero]
  next hne =>
    simp only [signOf, decide_eq_true_eq]
    split <;> omega

theorem correctlyRounded_f64Add (hu : f64IsFinite u = true) (hv : f64IsFinite v = true)
    (hr : f64Add u v = some r) : CorrectlyRounded ((f64Value u + f64Value v : ℤ) : ℚ) r := by
  rw [f64Add_of_finite hu hv, Option.some_inj] at hr
  have h := correctlyRounded_pack_round (sumNeg u v) (f64Value u + f64Value v).natAbs one_pos
  rwa [hr, Nat.cast_one, div_one, ← Int.cast_natCast (R := ℚ) (Int.natAbs _), ← Int.cast_mul,
    ← f64Value_add_eq_signOf] at h

theorem f64Neg_of_f64Add (hu : f64IsFinite u = true) (hv : f64IsFinite v = true) (hr : f64Add u v = some r) :
    f64Neg r = sumNeg u v := by
  rw [f64Add_of_finite hu hv, Option.some_inj] at hr
  rw [← hr, f64Neg_pack ((f64Round_le _ _).trans_lt f64InfMag_lt)]

theorem abs_lt_threshold_iff (z : ℤ) (e : Nat) :
    |(z : ℚ)| < (2 ^ 54 - 1) * 2 ^ e ↔ z.natAbs < (2 ^ 54 - 1) * 2 ^ e := by
  rw [← cast_threshold, ← Int.cast_abs, Int.abs_eq_natAbs, Int.cast_natCast, Nat.cast_lt]

/-- Settles O27: the packed sign and rounded magnitude are those of the exact sum, which is not zero where the
result is infinite. -/
theorem fAddIsCorrectlyRounded : Obligations.FAddIsCorrectlyRounded := by
  intro u v r hu hv hr
  obtain ⟨hfinite, hinf, hnear⟩ := correctlyRounded_f64Add hu hv hr
  rw [abs_lt_threshold_iff] at hfinite
  refine ⟨hfinite, fun h => ⟨hinf h, ?_⟩, fun h x hx => by exact_mod_cast hnear h x hx⟩
  have hsum : f64Value u + f64Value v ≠ 0 := by
    intro hzero
    rw [h, hzero, Int.natAbs_zero] at hfinite
    exact Bool.false_ne_true (hfinite.2 (threshold_pos 2044))
  rw [f64Neg_of_f64Add hu hv hr, sumNeg, if_neg hsum, decide_eq_true_iff]

theorem signOf_div_signOf (a b : Bool) : (signOf a : ℚ) / signOf b = signOf (a != b) := by
  cases a <;> cases b <;> norm_num [signOf]

/-- The exact ratio, in units of 2^-e, is that of the units the rounding is given, with the packed sign. -/
theorem f64Value_div_eq_signOf (u v : Payload) (e : Nat) :
    (f64Value u : ℚ) / (f64Value v : ℚ) * 2 ^ e =
      signOf (f64Neg u != f64Neg v) * (((f64Units u <<< e : Nat) : ℚ) / f64Units v) := by
  rw [f64Value_eq, f64Value_eq, ← f64Units_eq_magUnits, ← f64Units_eq_magUnits, Nat.shiftLeft_eq,
    ← signOf_div_signOf]
  push_cast
  rw [mul_div_mul_comm]
  ring

/-- Settles O28: the packed sign and rounded magnitude are those of the exact ratio. -/
theorem fDivIsCorrectlyRounded : Obligations.FDivIsCorrectlyRounded := by
  intro u v r hu hv hzero hr ratio
  have hden : 0 < f64Units v := by
    rw [Nat.pos_iff_ne_zero, Ne, f64Units_eq_zero_iff, ← f64IsZero_iff, hzero]
    exact Bool.false_ne_true
  rw [f64Div_of_finite hu hv, Option.some_inj] at hr
  have h := correctlyRounded_pack_round (f64Neg u != f64Neg v) (f64Units u <<< 1074) hden
  rw [hr, ← f64Value_div_eq_signOf] at h
  refine ⟨h.finite_iff, h.inf, ?_, h.nearest⟩
  rw [← hr, f64Neg_pack ((f64Round_le _ _).trans_lt f64InfMag_lt), bne_iff_ne]

end Sys2Proof.FloatArithProofs

/-! PROOFS of the family 44_comparison.md: what `Lt` and `FLt` write, and that the order of `FLt` is that of the
values. -/

namespace Sys2Proof.CompareProofs

open Sys2Proof Sys2Proof.Machine Sys2Proof.Safety Sys2Proof.LoadProofs Sys2Proof.IntArithProofs
  Sys2Proof.FloatArithProofs

variable {u v : Payload}

/-! ## The instructions -/

/-- The slot of a decided comparison, as the claims write it. -/
theorem boolSlot_decide (p : Prop) [Decidable p] : boolSlot (decide p) = .int (if p then 1 else 0) := by
  simp only [boolSlot, decide_eq_true_eq]

/-- Settles O21. -/
theorem ltWritesSignedComparison : Obligations.LtWritesSignedComparison := by
  intro s f callers w p q u v ha hw hsrc
  refine intBinary_wrote ha hw hsrc ?_
  rw [boolSlot_decide, except_pure]

/-- Settles O25: no operand makes the comparison raise, and it draws no NaN. -/
theorem fLtWritesIntComparison : Obligations.FLtWritesIntComparison := by
  intro s f callers w p q u v ha hw hsrc
  exact ⟨_, floatBinary_of_ok ha.stack hw hsrc.first hsrc.second hsrc.firstSlot hsrc.secondSlot rfl,
    wroteRegister_setSlot_advance ha hw (boolSlot (f64Lt u v))⟩

/-! ## The place of a pattern in the order -/

theorem f64Key_eq (v : Payload) : f64Key v = signOf (f64Neg v) * f64Mag v := by
  rw [f64Key, signOf]
  split <;> ring

theorem natAbs_f64Key (v : Payload) : (f64Key v).natAbs = f64Mag v := by
  rw [f64Key]
  split <;> omega

/-- Without NaNs, `f64Lt` compares places. -/
theorem f64Lt_iff_key_lt (hu : f64IsNaN u = false) (hv : f64IsNaN v = false) :
    f64Lt u v = true ↔ f64Key u < f64Key v := by
  simp [f64Lt, hu, hv]

theorem signOf_injective : Function.Injective signOf := by
  unfold Function.Injective
  decide

/-- Away from the zeros, patterns at one place are equal. -/
theorem eq_of_f64Key_eq (hu : f64Mag u ≠ 0) (h : f64Key v = f64Key u) : v = u := by
  have hmag : f64Mag v = f64Mag u := by rw [← natAbs_f64Key v, h, natAbs_f64Key]
  refine eq_of_neg_of_mag ?_ hmag
  rw [f64Key_eq, f64Key_eq, hmag] at h
  exact signOf_injective (mul_right_cancel₀ (Int.natCast_ne_zero.2 hu) h)

/-! ## Finite values -/

/-- R202's key fact: a larger magnitude pattern stands for more units, within a binade and across its end. -/
theorem magUnits_strictMono : StrictMono magUnits := by
  refine strictMono_nat_of_lt_succ fun m => ?_
  obtain ⟨shift, sig, rfl, hhigh, hlow⟩ :
      ∃ shift sig, m = shift * 2 ^ 52 + sig ∧ sig < 2 ^ 53 ∧ (shift = 0 ∨ 2 ^ 52 ≤ sig) :=
    ⟨m / 2 ^ 52 - 1, m - (m / 2 ^ 52 - 1) * 2 ^ 52, by omega, by omega, by omega⟩
  rw [Nat.add_assoc, magUnits_of_significand hhigh.le hlow,
    magUnits_of_significand hhigh (hlow.imp_right Nat.le_succ_of_le)]
  exact Nat.mul_lt_mul_of_pos_right (Nat.lt_succ_self sig) (Nat.two_pow_pos shift)

/-- Signs extend an order-preserving map of the magnitudes to one of the signed magnitudes, the two zeros being
equal. -/
theorem signOf_mul_lt_signOf_mul_iff {g : Nat → Nat} (hg : StrictMono g) (hzero : g 0 = 0) (a b : Bool)
    (m n : Nat) : signOf a * (g m : ℤ) < signOf b * g n ↔ signOf a * (m : ℤ) < signOf b * n := by
  have hpos (k : Nat) : 0 < g k ↔ 0 < k := by simpa only [hzero] using hg.lt_iff_lt (a := 0) (b := k)
  have hm := hpos m
  have hn := hpos n
  cases a <;> cases b <;> simp only [signOf, if_true, Bool.false_eq_true, if_false]
  · have := hg.lt_iff_lt (a := m) (b := n)
    omega
  · omega
  · omega
  · have := hg.lt_iff_lt (a := n) (b := m)
    omega

theorem f64Value_lt_iff_key_lt (u v : Payload) : f64Value u < f64Value v ↔ f64Key u < f64Key v := by
  rw [f64Value_eq, f64Value_eq, f64Key_eq, f64Key_eq]
  exact signOf_mul_lt_signOf_mul_iff magUnits_strictMono rfl ..

/-! ## Infinities -/

/-- No value lies beyond the infinities. -/
theorem f64Key_bounds (hv : f64IsNaN v = false) : -(f64InfMag : ℤ) ≤ f64Key v ∧ f64Key v ≤ f64InfMag := by
  rw [← Bool.not_eq_true, f64IsNaN_iff, ← natAbs_f64Key] at hv
  omega

theorem f64Key_of_inf (hu : f64IsInf u = true) :
    f64Key u = if f64Neg u = true then -(f64InfMag : ℤ) else f64InfMag := by
  rw [f64Key, f64IsInf_iff.1 hu]

/-- An infinity shares its place with no other pattern. -/
theorem f64Key_eq_iff_of_inf (hu : f64IsInf u = true) : f64Key v = f64Key u ↔ v = u := by
  refine ⟨eq_of_f64Key_eq ?_, congrArg f64Key⟩
  rw [f64IsInf_iff.1 hu]
  decide

/-- Below another value lies only the negative infinity. -/
theorem f64Key_inf_lt_iff (hu : f64IsInf u = true) (hv : f64IsNaN v = false) :
    f64Key u < f64Key v ↔ f64Neg u = true ∧ v ≠ u := by
  obtain ⟨hlow, hhigh⟩ := f64Key_bounds hv
  rw [Ne, ← f64Key_eq_iff_of_inf hu, f64Key_of_inf hu]
  split
  next hneg =>
    rw [and_iff_right hneg]
    omega
  next hpos => exact iff_of_false hhigh.not_gt fun h => hpos h.1

/-- Above another value lies only the positive infinity. -/
theorem f64Key_lt_inf_iff (hv : f64IsInf v = true) (hu : f64IsNaN u = false) :
    f64Key u < f64Key v ↔ f64Neg v = false ∧ u ≠ v := by
  obtain ⟨hlow, hhigh⟩ := f64Key_bounds hu
  rw [Ne, ← f64Key_eq_iff_of_inf hv, f64Key_of_inf hv, ← Bool.not_eq_true]
  split
  next hneg => exact iff_of_false hlow.not_gt fun h => h.1 hneg
  next hpos =>
    rw [and_iff_right hpos]
    omega

/-- Settles O30: `f64Lt` compares places, whose order on finite patterns is that of the values and whose ends are
the infinities. -/
theorem fLtFollowsValueOrder : Obligations.FLtFollowsValueOrder := by
  refine ⟨fun u v hu hv => ?_, fun u v hu hv => ?_, fun u v hv hu => ?_⟩
  · rw [f64Lt_iff_key_lt (f64IsNaN_of_finite hu) (f64IsNaN_of_finite hv), f64Value_lt_iff_key_lt]
  · rw [f64Lt_iff_key_lt (f64IsNaN_of_inf hu) hv, f64Key_inf_lt_iff hu hv]
  · rw [f64Lt_iff_key_lt hu (f64IsNaN_of_inf hv), f64Key_lt_inf_iff hv hu]

end Sys2Proof.CompareProofs

/-! PROOFS of the family 45_jumps.md: where the twelve jumps land, when they fall through, and which fault a bad
target or operand raises. -/

namespace Sys2Proof.JumpProofs

open Sys2Proof Sys2Proof.Machine Sys2Proof.Safety Sys2Proof.EncodingProofs Sys2Proof.DispatchProofs

variable {s : State} {f : Frame} {callers : List Frame} {reg index : Nat} {g taken : Bool} {v : Int}
  {e : Const} {target : Frame → Int} {targetAt : Frame → Int → Int}

/-! ## Operands that pass their checks -/

/-- The claims' `Guard` is a readable boolean. -/
theorem truth_of_guard (hg : Guard s f reg g) : truth s f reg = .ok g := by
  obtain ⟨hreg, u, hu, hug⟩ := hg
  refine truth_ok.2 ⟨u, hreg, hu, ?_⟩
  rw [truthOf, Bool.eq_iff_iff, decide_eq_true_iff, hug]

/-- A taken conditional jump is the unconditional jump to its target. -/
theorem jumpToIf_of_taken (hs : s.stack = f :: callers) (hg : Guard s f reg taken) :
    jumpToIf reg taken target s = jumpTo target s := by
  rw [jumpToIf, jumpTo, attempt_of_stack hs, attempt_of_stack hs, truth_of_guard hg, except_ok_bind, landIf,
    beq_self_eq_true, if_pos rfl]

/-- Through a `Jump` constant, an unconditional jump is the jump to the target its value gives. -/
theorem jumpConst_of_jumpConst (hs : s.stack = f :: callers) (hk : JumpConst s index v) :
    jumpConst index targetAt s = jumpTo (targetAt · v) s := by
  obtain ⟨e, he, hkind, hv⟩ := hk
  rw [jumpConst, jumpTo, attempt_of_stack hs, attempt_of_stack hs, readConst_ok.2 he, except_ok_bind,
    jumpValue_ok.2 ⟨hkind, hv⟩, except_ok_bind]

/-- Through a `Jump` constant, a conditional jump is the one to the target its value gives. -/
theorem jumpConstIf_of_jumpConst (hs : s.stack = f :: callers) (hreg : reg < f.size) (hk : JumpConst s index v) :
    jumpConstIf reg index taken targetAt s = jumpToIf reg taken (targetAt · v) s := by
  obtain ⟨e, he, hkind, hv⟩ := hk
  rw [jumpConstIf, jumpToIf, attempt_of_stack hs, attempt_of_stack hs, chk_of_lt hreg, except_ok_bind,
    readConst_ok.2 he, except_ok_bind, jumpValue_ok.2 ⟨hkind, hv⟩]
  rfl

/-! ## Targets out of range -/

/-- A jump whose target is outside the instruction store raises `IndexFault`. -/
theorem jumpTo_of_not_inCode (hs : s.stack = f :: callers) (ht : ¬InCode s (target f)) :
    jumpTo target s = .next (faulted s f callers .indexFault) := by
  have hout : target f < 0 ∨ (s.codeLen : Int) ≤ target f := by
    rw [InCode] at ht
    omega
  exact attempt_of_error hs (land_error.2 ⟨hout, rfl⟩)

theorem jumpToIf_of_not_inCode (hs : s.stack = f :: callers) (ht : ¬InCode s (target f)) (hg : Guard s f reg taken) :
    jumpToIf reg taken target s = .next (faulted s f callers .indexFault) :=
  (jumpToIf_of_taken hs hg).trans (jumpTo_of_not_inCode hs ht)

theorem jumpConst_of_not_inCode (hs : s.stack = f :: callers) (hk : JumpConst s index v)
    (ht : ¬InCode s (targetAt f v)) : jumpConst index targetAt s = .next (faulted s f callers .indexFault) :=
  (jumpConst_of_jumpConst hs hk).trans (jumpTo_of_not_inCode hs ht)

theorem jumpConstIf_of_not_inCode (hs : s.stack = f :: callers) (hk : JumpConst s index v)
    (ht : ¬InCode s (targetAt f v)) (hg : Guard s f reg taken) :
    jumpConstIf reg index taken targetAt s = .next (faulted s f callers .indexFault) :=
  (jumpConstIf_of_jumpConst hs hg.1 hk).trans (jumpToIf_of_not_inCode hs ht hg)

/-- Settles O36: in each family, absolute or relative, a taken jump is the unconditional jump to its target, which
faults. -/
theorem takenJumpsOutOfRangeFault : Obligations.TakenJumpsOutOfRangeFault := by
  intro s f callers hs
  refine ⟨fun target ht => ?_, fun offset ht => ?_, fun index v hk ht => ?_, fun index v hk ht => ?_⟩
  · exact ⟨jumpTo_of_not_inCode hs ht, fun reg =>
      ⟨fun hg => jumpToIf_of_not_inCode hs ht hg, fun hg => jumpToIf_of_not_inCode hs ht hg⟩⟩
  · exact ⟨jumpTo_of_not_inCode hs ht, fun reg =>
      ⟨fun hg => jumpToIf_of_not_inCode hs ht hg, fun hg => jumpToIf_of_not_inCode hs ht hg⟩⟩
  · exact ⟨jumpConst_of_not_inCode hs hk ht, fun reg =>
      ⟨fun hg => jumpConstIf_of_not_inCode hs hk ht hg, fun hg => jumpConstIf_of_not_inCode hs hk ht hg⟩⟩
  · exact ⟨jumpConst_of_not_inCode hs hk ht, fun reg =>
      ⟨fun hg => jumpConstIf_of_not_inCode hs hk ht hg, fun hg => jumpConstIf_of_not_inCode hs hk ht hg⟩⟩

/-! ## Operands that fail a check -/

/-- A conditional jump takes the fault of its guard. -/
theorem jumpToIf_of_truth_error {k : FaultKind} (hs : s.stack = f :: callers) (h : truth s f reg = .error k) :
    jumpToIf reg taken target s = .next (faulted s f callers k) :=
  attempt_of_error hs (by rw [h, except_error_bind])

theorem jumpConst_of_index_ge (hs : s.stack = f :: callers) (hindex : s.poolLen ≤ index) :
    jumpConst index targetAt s = .next (faulted s f callers .indexFault) :=
  attempt_of_error hs (by rw [readConst_error.2 ⟨hindex, rfl⟩, except_error_bind])

theorem jumpConst_of_not_jump (hs : s.stack = f :: callers) (he : s.pool[index]? = some e) (hkind : e.kind ≠ .jump) :
    jumpConst index targetAt s = .next (faulted s f callers .typeFault) :=
  attempt_of_error hs (by
    rw [readConst_ok.2 he, except_ok_bind, jumpValue_error.2 ⟨hkind, rfl⟩, except_error_bind])

/-- Both bounds come before the tag and the kind. -/
theorem jumpConstIf_of_ge (hs : s.stack = f :: callers) (h : f.size ≤ reg ∨ s.poolLen ≤ index) :
    jumpConstIf reg index taken targetAt s = .next (faulted s f callers .indexFault) := by
  refine attempt_of_error hs ?_
  obtain hreg | hreg := Nat.lt_or_ge reg f.size
  · have hindex : s.poolLen ≤ index := h.resolve_left (Nat.not_le.2 hreg)
    rw [chk_of_lt hreg, except_ok_bind, readConst_error.2 ⟨hindex, rfl⟩, except_error_bind]
  · rw [chk_of_ge hreg, except_error_bind]

/-- Both operands in bounds, a guard that is no `Int` or a constant that is no `Jump` raises `TypeFault`. -/
theorem jumpConstIf_of_type (hs : s.stack = f :: callers) (hreg : reg < f.size) (he : s.pool[index]? = some e)
    (h : (s.slotAt (f.base + reg)).tag ≠ .int ∨ e.kind ≠ .jump) :
    jumpConstIf reg index taken targetAt s = .next (faulted s f callers .typeFault) := by
  refine attempt_of_error hs ?_
  rw [chk_of_lt hreg, except_ok_bind, readConst_ok.2 he, except_ok_bind]
  by_cases htag : (s.slotAt (f.base + reg)).tag = .int
  · have hvalue : jumpValue e = .error .typeFault := jumpValue_error.2 ⟨h.resolve_left (not_not.2 htag), rfl⟩
    cases hguard : truth s f reg with
    | ok g => rw [except_ok_bind, hvalue, except_error_bind]
    | error k => simp [truth_error, htag, Nat.not_le.2 hreg] at hguard
  · rw [truth_error.2 (.inr ⟨hreg, htag, rfl⟩), except_error_bind]

/-- Settles O37: one lemma for each check of an addressing family. -/
theorem jumpOperandChecksComeInOrder : Obligations.JumpOperandChecksComeInOrder := by
  intro s f callers hs
  refine ⟨?_, ?_, ?_⟩
  · rintro reg i (⟨target, rfl | rfl⟩ | ⟨offset, rfl | rfl⟩)
    all_goals exact ⟨fun hreg => jumpToIf_of_truth_error hs (truth_error.2 (.inl ⟨hreg, rfl⟩)),
      fun hreg htag => jumpToIf_of_truth_error hs (truth_error.2 (.inr ⟨hreg, htag, rfl⟩))⟩
  · rintro index i (rfl | rfl)
    all_goals exact ⟨jumpConst_of_index_ge hs, fun e => jumpConst_of_not_jump hs⟩
  · rintro reg index i (rfl | rfl | rfl | rfl)
    all_goals exact ⟨jumpConstIf_of_ge hs, fun e => jumpConstIf_of_type hs⟩

/-! ## Landing and falling through -/

/-- Settles O33: through a constant or not, the jump's one check is its target's range. -/
theorem unconditionalJumpsLand : Obligations.UnconditionalJumpsLand := by
  intro s f callers hs
  exact ⟨fun target ht => jumpTo_of_inCode hs ht, fun offset ht => jumpTo_of_inCode hs ht,
    fun index v hk ht => (jumpConst_of_jumpConst hs hk).trans (jumpTo_of_inCode hs ht),
    fun index v hk ht => (jumpConst_of_jumpConst hs hk).trans (jumpTo_of_inCode hs ht)⟩

/-- A conditional jump whose guard matches lands on a target inside the instruction store. -/
theorem jumpToIf_lands (hs : s.stack = f :: callers) (hg : Guard s f reg g) (htaken : g = taken)
    (ht : InCode s (target f)) : jumpToIf reg taken target s = .next (withIp s f callers (target f).toNat) :=
  (jumpToIf_of_taken hs (htaken ▸ hg)).trans (jumpTo_of_inCode hs ht)

/-- A conditional jump whose guard does not match advances by one; the target is not looked at. -/
theorem jumpToIf_fallsThrough (hs : s.stack = f :: callers) (hg : Guard s f reg g) (htaken : g = !taken) :
    jumpToIf reg taken target s = .next (withIp s f callers (f.ip + 1)) := by
  refine attempt_of_ok hs ?_
  have hne : (g == taken) = false := by rw [htaken, Bool.not_beq_self]
  rw [truth_of_guard hg, except_ok_bind, hne, landIf_ok]
  exact .inr ⟨rfl, advance_eq_withIp hs⟩

/-- Settles O34: absolute and relative jumps alike, by whether the guard matches. -/
theorem guardedJumpsLandOrFallThrough : Obligations.GuardedJumpsLandOrFallThrough := by
  intro s f callers reg g hs hg
  refine ⟨fun target => ?_, fun offset => ?_⟩
  all_goals exact ⟨fun h ht => jumpToIf_lands hs hg h ht, fun h => jumpToIf_fallsThrough hs hg h,
    fun h ht => jumpToIf_lands hs hg h ht, fun h => jumpToIf_fallsThrough hs hg h⟩

theorem jumpConstIf_lands (hs : s.stack = f :: callers) (hg : Guard s f reg g) (hk : JumpConst s index v)
    (htaken : g = taken) (ht : InCode s (targetAt f v)) :
    jumpConstIf reg index taken targetAt s = .next (withIp s f callers (targetAt f v).toNat) :=
  (jumpConstIf_of_jumpConst hs hg.1 hk).trans (jumpToIf_lands hs hg htaken ht)

theorem jumpConstIf_fallsThrough (hs : s.stack = f :: callers) (hg : Guard s f reg g) (hk : JumpConst s index v)
    (htaken : g = !taken) : jumpConstIf reg index taken targetAt s = .next (withIp s f callers (f.ip + 1)) :=
  (jumpConstIf_of_jumpConst hs hg.1 hk).trans (jumpToIf_fallsThrough hs hg htaken)

/-- Settles O35: a readable constant gives the jump its target, and the guard decides as without a constant. -/
theorem guardedConstantJumpsLandOrFallThrough : Obligations.GuardedConstantJumpsLandOrFallThrough := by
  intro s f callers reg index g v hs hg hk
  exact ⟨fun h ht => jumpConstIf_lands hs hg hk h ht, fun h => jumpConstIf_fallsThrough hs hg hk h,
    fun h ht => jumpConstIf_lands hs hg hk h ht, fun h => jumpConstIf_fallsThrough hs hg hk h,
    fun h ht => jumpConstIf_lands hs hg hk h ht, fun h => jumpConstIf_fallsThrough hs hg hk h,
    fun h ht => jumpConstIf_lands hs hg hk h ht, fun h => jumpConstIf_fallsThrough hs hg hk h⟩

/-! ## `RJmp 0` -/

/-- The relative target of offset 0 is the next instruction. -/
theorem relTarget_zero (f : Frame) : relTarget f 0 = (f.ip + 1 : Nat) := by
  rw [relTarget]
  omega

/-- Settles O38: the target is the next instruction, which is inside the store unless the jump is its last word. -/
theorem rJmpZeroFallsThroughExceptLast : Obligations.RJmpZeroFallsThroughExceptLast := by
  intro s f callers hs
  refine ⟨fun hnext => ?_, fun hlast => ?_⟩
  · have hin : InCode s (relTarget f 0) := by
      rw [relTarget_zero]
      exact ⟨Int.natCast_nonneg _, Int.ofNat_lt.2 hnext⟩
    have hjump := jumpTo_of_inCode (target := (relTarget · 0)) hs hin
    rw [nopOnlyAdvances s f callers hs]
    rwa [relTarget_zero, Int.toNat_natCast] at hjump
  · have hout : ¬InCode s (relTarget f 0) := by
      rw [relTarget_zero, hlast]
      exact fun hin => Int.lt_irrefl _ hin.2
    exact jumpTo_of_not_inCode (target := (relTarget · 0)) hs hout

end Sys2Proof.JumpProofs

/-! PROOFS of the family 46_call_return.md: what `Call` and `Ret` leave and which fault they raise, the
invariants of the call stack, and that a called function leaves what lies below its window alone. -/

namespace Sys2Proof.CallReturnProofs

open Sys2Proof Sys2Proof.Machine Sys2Proof.Safety Sys2Proof.StateProofs Sys2Proof.DispatchProofs

variable {s s0 t u : State} {f c g : Frame} {callers rest lower fs : List Frame} {n start func k : Nat}
  {e : Const}

/-! ## Checks -/

theorem raiseIf_bind_of {α : Type} {p : Prop} [Decidable p] {kind : FaultKind} {rule : Unit → Except FaultKind α}
    (h : p) : (raiseIf p kind >>= rule) = .error kind := by
  rw [raiseIf_of h, except_error_bind]

theorem raiseIf_bind_of_not {α : Type} {p : Prop} [Decidable p] {kind : FaultKind}
    {rule : Unit → Except FaultKind α} (h : ¬p) : (raiseIf p kind >>= rule) = rule () := by
  rw [raiseIf_of_not h, except_ok_bind]

/-! ## Runs of slots -/

/-- `copySlots_getD` with the conditions of a copy that may be empty, as `Call` and `Ret` check them. -/
theorem copySlots_getD_of_checked (rf : List Slot) (src dst n j : Nat) (hfit : 0 < n → dst + n ≤ rf.length)
    (hdisj : 0 < n → src + n ≤ dst ∨ dst + n ≤ src) :
    (copySlots rf src dst n).getD j .invalid =
      if dst ≤ j ∧ j < dst + n then rf.getD (src + (j - dst)) .invalid else rf.getD j .invalid := by
  obtain rfl | hn := Nat.eq_zero_or_pos n
  · rw [copySlots, if_neg (by omega)]
  · exact copySlots_getD rf src dst n j (hfit hn) (hdisj hn)

/-- Wherever a copy comes from and however long it is, it leaves the slots below its destination alone. -/
theorem copySlots_getD_below (rf : List Slot) (src dst n : Nat) {j : Nat} (h : j < dst) :
    (copySlots rf src dst n).getD j .invalid = rf.getD j .invalid := by
  induction n with
  | zero => rfl
  | succ n ih => rw [copySlots, getD_set_slot, if_neg (by omega), ih]

/-! ## Call -/

/-- The state a completed `Call` leaves (46_call_return.md R241, R242). -/
def afterCall (s : State) (f : Frame) (n start : Nat) (e : Const) : State :=
  (s.withRf (copySlots (clearSlots s.rf (f.base + f.size) e.window) (f.base + start) (f.base + f.size)
    n)).advance.push (calleeFrame f start e e.value.toInt)

theorem exec_call_of_ok (hs : s.stack = f :: callers) (hargs : 0 < n → start + n ≤ f.size)
    (he : s.pool[func]? = some e) (hk : e.kind = .jump) (hentry : InCode s e.value.toInt)
    (hn : n ≤ e.window) (hd : s.depth < s.maxDepth) (hroom : f.base + f.size + e.window ≤ s.regfileSize) :
    exec (.call n start func) s = .next (afterCall s f n start e) := by
  obtain ⟨h0, h1⟩ := hentry
  refine attempt_of_ok hs ?_
  simp only [except_bind_ok, raiseIf_ok, readConst_ok, jumpValue_ok]
  exact ⟨(), by omega, e, he, _, ⟨hk, rfl⟩, (), by omega, (), by omega, (), by omega, (), by omega, rfl⟩

/-- A `Call` after which the machine still runs is a completed one. -/
theorem afterCall_of_running (hs : s.stack = f :: callers) (h : exec (.call n start func) s = .next t)
    (hr : t.run = .running) : ∃ e, t = afterCall s f n start e := by
  obtain ⟨f', callers', hs', ⟨e, -, -, -, -, -, -, -, -, rfl⟩ | ⟨k, rfl⟩⟩ := execCall_next h
  · cases hs.symm.trans hs'
    exact ⟨e, rfl⟩
  · cases hr

theorem afterCall_stack (hs : s.stack = f :: callers) : (afterCall s f n start e).stack =
    calleeFrame f start e e.value.toInt :: { f with ip := f.ip + 1 } :: callers := by
  simp [afterCall, hs, State.ip]

/-- The arena after `Call`: the arguments in the leading slots of the new window, `Invalid` in its others,
everything outside it as before. -/
theorem afterCall_slotAt (hargs : 0 < n → start + n ≤ f.size) (hn : n ≤ e.window)
    (hroom : f.base + f.size + e.window ≤ s.regfileSize) (k : Nat) :
    (afterCall s f n start e).slotAt k =
      if f.base + f.size ≤ k ∧ k < f.base + f.size + n then
        s.slotAt (f.base + start + (k - (f.base + f.size)))
      else if f.base + f.size ≤ k ∧ k < f.base + f.size + e.window then .invalid
      else s.slotAt k := by
  have hlen : (clearSlots s.rf (f.base + f.size) e.window).length = s.regfileSize := clearSlots_length ..
  have hcopied := copySlots_getD_of_checked (clearSlots s.rf (f.base + f.size) e.window) (f.base + start)
    (f.base + f.size) n k (by omega) (by omega)
  refine hcopied.trans ?_
  rw [clearSlots_getD, clearSlots_getD]
  by_cases hk : f.base + f.size ≤ k ∧ k < f.base + f.size + n
  · rw [if_pos hk, if_pos hk, if_neg (by omega)]
    rfl
  · rw [if_neg hk, if_neg hk]
    rfl

/-- Settles O39: `afterCall`, field by field. -/
theorem callBuildsFrameAndWindow : Obligations.CallBuildsFrameAndWindow := by
  intro s f callers n start func e hs hargs he hk hentry hn hd hroom
  have hslots := afterCall_slotAt hargs hn hroom
  have hip : (e.value.toInt.toNat : Int) = e.value.toInt := Int.toNat_of_nonneg hentry.1
  refine ⟨_, _, exec_call_of_ok hs hargs he hk hentry hn hd hroom, afterCall_stack hs, ?_, hip, rfl, rfl, rfl,
    rfl, hip, fun k hk => ?_, fun k hk hk' => ?_, fun k hk => ?_, ?_, rfl, rfl, rfl, rfl⟩
  · rw [State.depth_of_stack (afterCall_stack hs), State.depth_of_stack hs, List.length_cons]
  · rw [hslots, if_pos (by omega), Nat.add_sub_cancel_left]
  · rw [hslots, if_neg (by omega), if_pos (by omega)]
  · rw [hslots, if_neg (by omega), if_neg (by omega)]
  · exact ⟨rfl, rfl, rfl, rfl, by simp [afterCall, State.regfileSize]⟩

/-- Settles O40: with each check that passes, the rule of `Call` is what stands after that check. -/
theorem callFaultsComeInOrder : Obligations.CallFaultsComeInOrder := by
  intro s f callers n start func hs fails
  have hfails : ∀ k, (_ : Except FaultKind State) = .error k → fails k := fun k => attempt_of_error hs
  beta_reduce at hfails
  by_cases hargs : 0 < n ∧ f.size < start + n
  · rw [if_pos hargs]
    exact hfails _ (raiseIf_bind_of hargs)
  rw [if_neg hargs]
  rw [raiseIf_bind_of_not hargs] at hfails
  by_cases hindex : s.poolLen ≤ func
  · rw [if_pos hindex]
    exact hfails _ (by rw [readConst_error.2 ⟨hindex, rfl⟩, except_error_bind])
  rw [if_neg hindex]
  intro e he
  rw [readConst_ok.2 he, except_ok_bind] at hfails
  by_cases hkind : e.kind ≠ .jump
  · rw [if_pos hkind]
    exact hfails _ (by rw [jumpValue_error.2 ⟨hkind, rfl⟩, except_error_bind])
  rw [if_neg hkind]
  rw [jumpValue_ok.2 ⟨not_not.1 hkind, rfl⟩, except_ok_bind] at hfails
  by_cases hentry : e.value.toInt < 0 ∨ (s.codeLen : Int) ≤ e.value.toInt
  · rw [if_pos hentry]
    exact hfails _ (raiseIf_bind_of hentry)
  rw [if_neg hentry]
  rw [raiseIf_bind_of_not hentry] at hfails
  by_cases hwindow : e.window < n
  · rw [if_pos hwindow]
    exact hfails _ (raiseIf_bind_of hwindow)
  rw [if_neg hwindow]
  rw [raiseIf_bind_of_not hwindow] at hfails
  by_cases hdepth : s.maxDepth ≤ s.depth
  · rw [if_pos hdepth]
    exact hfails _ (raiseIf_bind_of hdepth)
  rw [if_neg hdepth]
  rw [raiseIf_bind_of_not hdepth] at hfails
  intro hroom
  exact hfails _ (raiseIf_bind_of hroom)

/-! ## Ret -/

/-- The state a completed `Ret` in a called frame leaves (46_call_return.md R244). -/
def afterRet (s : State) (f c : Frame) (n start : Nat) : State :=
  (s.withRf (copySlots s.rf (f.base + start) (c.base + f.retdst) n)).pop

theorem exec_ret_of_ok (hs : s.stack = f :: c :: rest) (hsrc : 0 < n → start + n ≤ f.size) (hn : n = f.nret)
    (hdst : 0 < n → f.retdst + n ≤ c.size) : exec (.ret n start) s = .next (afterRet s f c n start) := by
  refine attempt_of_ok hs ?_
  simp only [returnTo, except_bind_ok, raiseIf_ok]
  exact ⟨(), by omega, (), not_not.2 hn, (), by omega, rfl⟩

/-- A `Ret` in a called frame after which the machine still runs is a completed one. -/
theorem afterRet_of_running (hs : s.stack = f :: c :: rest) (h : exec (.ret n start) s = .next t)
    (hr : t.run = .running) : (0 < n → f.retdst + n ≤ c.size) ∧ (0 < n → start + n ≤ f.size) ∧
      t = afterRet s f c n start := by
  obtain ⟨f', callers', hs', hret⟩ := execRet_next h
  cases hs.symm.trans hs'
  obtain ⟨hnil, -, -⟩ | ⟨c', rest', hcons, hsrc, -, hdst, rfl⟩ | ⟨k, rfl⟩ := hret
  · cases hnil
  · cases hcons
    exact ⟨by omega, by omega, rfl⟩
  · cases hr

theorem afterRet_stack (hs : s.stack = f :: c :: rest) : (afterRet s f c n start).stack = c :: rest := by
  simp [afterRet, hs]

/-- The arena after `Ret`: source and destination lie in neighbouring windows, so each destination slot holds
what its source slot held. -/
theorem afterRet_slotAt (hbase : f.base = c.base + c.size) (hfits : f.base + f.size ≤ s.regfileSize)
    (hdst : 0 < n → f.retdst + n ≤ c.size) (start k : Nat) :
    (afterRet s f c n start).slotAt k =
      if c.base + f.retdst ≤ k ∧ k < c.base + f.retdst + n then
        s.slotAt (f.base + start + (k - (c.base + f.retdst)))
      else s.slotAt k := by
  rw [State.regfileSize] at hfits
  exact copySlots_getD_of_checked s.rf (f.base + start) (c.base + f.retdst) n k (by omega) (by omega)

/-- Settles O41: `afterRet`, field by field. -/
theorem retCopiesValuesAndPops : Obligations.RetCopiesValuesAndPops := by
  intro s f c rest n start hs hbase hfits hsrc hn hdst
  have hslots := afterRet_slotAt hbase hfits hdst start
  refine ⟨_, exec_ret_of_ok hs hsrc hn hdst, afterRet_stack hs, fun k hk => ?_, fun k hk => ?_, ?_, rfl, rfl,
    rfl, rfl⟩
  · rw [hslots, if_pos (by omega), Nat.add_sub_cancel_left]
  · rw [hslots, if_neg (by omega)]
  · exact ⟨rfl, rfl, rfl, rfl, by simp [afterRet, State.regfileSize]⟩

/-- Settles O42: the first of the three checks to fail raises `IndexFault`, as each of them would. -/
theorem retFaultsOnBadCounts : Obligations.RetFaultsOnBadCounts := by
  intro s f c rest n start hs hbad
  refine attempt_of_error hs ?_
  change returnTo n start s f c = _
  rw [returnTo]
  by_cases hsrc : 0 < n ∧ f.size < start + n
  · exact raiseIf_bind_of hsrc
  rw [raiseIf_bind_of_not hsrc]
  by_cases hn : n ≠ f.nret
  · exact raiseIf_bind_of hn
  rw [raiseIf_bind_of_not hn]
  have hdst : 0 < n ∧ c.size < f.retdst + n := (hbad.resolve_left hsrc).resolve_left hn
  exact raiseIf_bind_of hdst

/-- Settles O43: `slotsFrom` lists the named slots, and the one check is their bound. -/
theorem outermostRetEndsProgram : Obligations.OutermostRetEndsProgram := by
  intro s f n start hs
  refine ⟨fun hsrc => ⟨s.slotsFrom (f.base + start) n, ?_, State.slotsFrom_length .., fun k hk => ?_⟩,
    fun hn hsrc => ?_⟩
  · refine attempt_of_ok hs ?_
    have hpass : ¬(0 < n ∧ f.size < start + n) := by omega
    rw [endProgram, raiseIf_bind_of_not hpass]
    rfl
  · simp [State.slotsFrom, List.getElem?_range hk]
  · refine attempt_of_error hs ?_
    rw [endProgram, raiseIf_bind_of ⟨hn, hsrc⟩]

/-! ## The invariants of the call stack -/

/-- The two fields of a frame that name words of a store of length `len` (46_call_return.md R247). -/
def FrameInCode (len : Nat) (g : Frame) : Prop := g.ip ≤ len ∧ (len ≠ 0 → g.codeBase < len)

theorem frameInCode_of_stackInv (h : StackInv s) (hg : g ∈ s.stack) : FrameInCode s.codeLen g :=
  ⟨h.ips g hg, h.codeBases g hg⟩

theorem fits_of_stackInv (h : StackInv s) (hs : s.stack = f :: callers) : f.base + f.size ≤ s.regfileSize :=
  h.fits f (by rw [hs]; rfl)

/-- A state of the same unit has the invariants when its call stack has them within that unit's limits. -/
theorem stackInv_of_stack (hu : SameUnit s t) (ht : t.stack = f :: callers)
    (hd : callers.length + 1 ≤ s.maxDepth) (hc : Chained t.stack) (hfits : f.base + f.size ≤ s.regfileSize)
    (hcode : ∀ g ∈ f :: callers, FrameInCode s.codeLen g) : StackInv t where
  nonempty := by rw [State.depth_of_stack ht]; omega
  depth := by rw [State.depth_of_stack ht, hu.maxDepth]; exact hd
  chained := hc
  fits g hg := by
    rw [ht] at hg
    cases hg
    rw [hu.regfileSize]
    exact hfits
  ips g hg := by rw [State.codeLen, hu.code]; exact (hcode g (ht ▸ hg)).1
  codeBases g hg := by rw [State.codeLen, hu.code]; exact (hcode g (ht ▸ hg)).2

theorem stackInv_halt (h : StackInv s) (r : Completion) : StackInv (s.halt r) :=
  ⟨h.nonempty, h.depth, h.chained, h.fits, h.ips, h.codeBases⟩

/-- Moving the active frame's `ip` inside the store or to its end keeps the invariants. -/
theorem stackInv_of_setTopIp (h : StackInv s) (hu : SameUnit s t) (hs : s.stack = f :: callers)
    (ht : t.stack = setTopIp s.stack n) (hn : n ≤ s.codeLen) : StackInv t := by
  have hcode : ∀ g ∈ f :: callers, FrameInCode s.codeLen g := fun g hg => frameInCode_of_stackInv h (hs ▸ hg)
  have hc : Chained t.stack := ht ▸ chained_setTopIp.2 h.chained
  have hd := h.depth
  have hfits := fits_of_stackInv h hs
  rw [State.depth_of_stack hs] at hd
  rw [List.forall_mem_cons] at hcode
  rw [hs, setTopIp_cons] at ht
  exact stackInv_of_stack hu ht hd hc hfits
    (List.forall_mem_cons.2 ⟨⟨hn, hcode.1.2⟩, hcode.2⟩)

/-- An instruction fetched from the store keeps the invariants: only `Call` adds a frame, under its checks, and
the frame `Ret` uncovers lies below one that fits. -/
theorem effect_stackInv (h : StackInv s) (hip : s.ip < s.codeLen) (he : Effect s t) : StackInv t := by
  have hu := effect_sameUnit he
  have hc := effect_chained he h.chained
  cases he with
  | wrote _ _ _ _ hs | wroteDrawing _ _ _ _ hs | emitted _ _ _ _ hs | advanced _ _ hs =>
    exact stackInv_of_setTopIp h hu hs rfl hip
  | jumped _ _ _ hs hn => exact stackInv_of_setTopIp h hu hs rfl hn.le
  | called f callers n start func e hs _ _ _ h0 h1 _ hd hroom =>
    have hcode : ∀ g ∈ f :: callers, FrameInCode s.codeLen g :=
      fun g hg => frameInCode_of_stackInv h (hs ▸ hg)
    rw [List.forall_mem_cons] at hcode
    rw [State.ip_of_stack hs] at hip
    have hentry : e.value.toInt.toNat < s.codeLen := by omega
    refine stackInv_of_stack hu (afterCall_stack hs) ?_ hc hroom ?_
    · rw [State.depth_of_stack hs] at hd
      exact hd
    · rw [List.forall_mem_cons, List.forall_mem_cons]
      exact ⟨⟨hentry.le, fun _ => hentry⟩, ⟨hip, hcode.1.2⟩, hcode.2⟩
  | returned f c rest n start hs =>
    have hd := h.depth
    have hchain := h.chained
    have hfits := fits_of_stackInv h hs
    rw [State.depth_of_stack hs, List.length_cons] at hd
    rw [hs] at hchain
    have hbase : f.base = c.base + c.size := hchain.1
    exact stackInv_of_stack hu (afterRet_stack hs) (by omega) hc (by omega)
      fun g hg => frameInCode_of_stackInv h (hs ▸ List.mem_cons_of_mem f hg)
  | ended | faulted => exact stackInv_halt h _

/-- Settles O52: a step runs an instruction only where the store holds one, so the advance stays inside. -/
theorem stepKeepsStackInvariant : Obligations.StepKeepsStackInvariant := by
  intro s t h hstep
  obtain ⟨-, rfl⟩ | ⟨-, f, callers, hs, ⟨-, rfl⟩ | ⟨w, hw, ⟨-, rfl⟩ | ⟨i, -, hi⟩⟩⟩ := step_next hstep
  · exact h
  · exact stackInv_halt h _
  · exact stackInv_halt h _
  · rw [← State.ip_of_stack hs] at hw
    exact effect_stackInv h (List.getElem?_eq_some_iff.1 hw).1 (exec_effect hi)

/-- While it runs, a launched machine has the invariants and a store that is not empty. -/
def WellStackedWhileRunning (s : State) : Prop := s.run = .running → StackInv s ∧ s.codeLen ≠ 0

theorem stackInv_fresh {cfg : Config} {code : List Word} {pool : List Const}
    (hwindow : cfg.entryWindow ≤ cfg.regfileSize) (hdepth : 1 ≤ cfg.maxDepth) :
    StackInv (State.fresh cfg code pool) :=
  stackInv_of_stack (f := Frame.outermost cfg.entryWindow) ⟨rfl, rfl, rfl, rfl, rfl⟩ rfl hdepth rfl
    (by simpa [Frame.outermost, State.fresh, State.regfileSize] using hwindow)
    (List.forall_mem_singleton.2 ⟨Nat.zero_le _, Nat.pos_of_ne_zero⟩)

theorem boot_wellStackedWhileRunning {cfg : Config} {code : List Word} {pool : List Const}
    (h : boot cfg code pool = some s) : WellStackedWhileRunning s := by
  unfold boot at h
  split at h
  case isFalse => cases h
  case isTrue hlaunch =>
    simp only [launchable, Bool.and_eq_true, decide_eq_true_eq] at hlaunch
    obtain ⟨⟨⟨hwindow, hdepth⟩, -⟩, -⟩ := hlaunch
    split at h
    case h_1 =>
      cases h
      intro hr
      cases hr
    case h_2 hcheck =>
      cases h
      refine fun _ => ⟨stackInv_fresh hwindow hdepth, fun hlen => ?_⟩
      rw [List.length_eq_zero_iff.1 (show code.length = 0 from hlen)] at hcheck
      cases hcheck

theorem step_wellStackedWhileRunning (h : WellStackedWhileRunning s) (hstep : step s = .next t) :
    WellStackedWhileRunning t := by
  cases hr : s.run with
  | halted =>
    rw [step_of_halted hr] at hstep
    cases hstep
    exact h
  | running =>
    obtain ⟨hinv, hlen⟩ := h hr
    refine fun _ => ⟨stepKeepsStackInvariant s t hinv hstep, ?_⟩
    rw [State.codeLen, (unitAndConfigurationNeverChange s t hstep).code]
    exact hlen

/-- Settles O54: a launch that runs has passed the load check, which no empty store does. -/
theorem reachableStatesAreWellStacked : Obligations.ReachableStatesAreWellStacked := by
  intro cfg code pool s0 t n hboot hrun hr
  obtain ⟨hinv, hlen⟩ := reachedFrom_induct (fun _ _ => step_wellStackedWhileRunning) hrun
    (boot_wellStackedWhileRunning hboot) hr
  exact ⟨hinv.nonempty, hinv.depth, hinv.chained, hinv.fits,
    fun f hf => ⟨hinv.ips f hf, hinv.codeBases f hf hlen⟩⟩

/-! ## Below the active window nothing changes -/

/-- Whatever an instruction does, every slot below the window that is active afterwards is as before. -/
theorem effect_slotAt_below (he : Effect s t) (hg : t.stack.head? = some g) (hk : k < g.base) :
    t.slotAt k = s.slotAt k := by
  cases he with
  | wrote f callers w r hs =>
    simp only [State.advance_stack, State.setSlot_stack, hs, setTopIp_cons, List.head?_cons] at hg
    cases hg
    rw [State.slotAt_advance]
    exact State.slotAt_setSlot_other r (Nat.ne_of_lt (Nat.lt_add_right w hk))
  | wroteDrawing f callers w r hs =>
    simp only [State.advance_stack, State.nextDraw_stack, State.setSlot_stack, hs, setTopIp_cons,
      List.head?_cons] at hg
    cases hg
    rw [State.slotAt_advance, State.slotAt_nextDraw]
    exact State.slotAt_setSlot_other r (Nat.ne_of_lt (Nat.lt_add_right w hk))
  | called f callers n start func e =>
    cases hg
    have hk : k < f.base + f.size := hk
    refine (copySlots_getD_below _ _ _ n hk).trans ?_
    rw [clearSlots_getD, if_neg (by omega)]
    rfl
  | returned f c rest n start hs =>
    simp only [State.pop_stack, State.withRf_stack, hs, List.tail_cons, List.head?_cons] at hg
    cases hg
    exact copySlots_getD_below _ _ _ n (Nat.lt_add_right f.retdst hk)
  | emitted | advanced | jumped | ended | faulted => rfl

theorem step_slotAt_below (h : step s = .next t) (hg : t.stack.head? = some g) (hk : k < g.base) :
    t.slotAt k = s.slotAt k :=
  step_induct (R := fun s t => t.stack.head? = some g → t.slotAt k = s.slotAt k) h (fun _ => rfl)
    (fun _ he hg => effect_slotAt_below he hg hk) (fun _ => rfl) hg

/-! ## A frame that has not returned -/

/-- The frame `g`, wherever its `ip` stands by now, is still on the call stack over the frames `lower`. -/
def StillCalled (g : Frame) (lower fs : List Frame) : Prop := ∃ ip, { g with ip := ip } :: lower <:+ fs

theorem stillCalled_setTopIp (h : StillCalled g lower fs) (n : Nat) : StillCalled g lower (setTopIp fs n) := by
  obtain ⟨ip, inner, rfl⟩ := h
  cases inner with
  | nil => exact ⟨n, List.suffix_rfl⟩
  | cons a inner => exact ⟨ip, { a with ip := n } :: inner, rfl⟩

/-- A pop that leaves more than the frames `lower` was not that of `g`. -/
theorem stillCalled_tail (h : StillCalled g lower (f :: rest)) (hd : lower.length < rest.length) :
    StillCalled g lower rest := by
  obtain ⟨ip, hsuffix⟩ := h
  obtain heq | hsuffix := List.suffix_cons_iff.1 hsuffix
  · cases heq
    exact absurd hd (Nat.lt_irrefl _)
  · exact ⟨ip, hsuffix⟩

theorem effect_stillCalled (he : Effect s t) (h : StillCalled g lower s.stack)
    (hd : lower.length < t.depth) : StillCalled g lower t.stack := by
  cases he with
  | wrote | wroteDrawing | emitted | advanced | jumped => exact stillCalled_setTopIp h _
  | called =>
    obtain ⟨ip, hsuffix⟩ := stillCalled_setTopIp h (s.ip + 1)
    exact ⟨ip, hsuffix.trans (List.suffix_cons _ _)⟩
  | returned f c rest n start hs =>
    have ht := afterRet_stack (n := n) (start := start) hs
    change lower.length < (afterRet s f c n start).depth at hd
    change StillCalled g lower (afterRet s f c n start).stack
    rw [State.depth_of_stack ht] at hd
    rw [ht]
    exact stillCalled_tail (hs ▸ h) hd
  | ended | faulted => exact h

theorem step_stillCalled (hstep : step s = .next t) (h : StillCalled g lower s.stack)
    (hd : lower.length < t.depth) : StillCalled g lower t.stack :=
  step_induct (R := fun s t => StillCalled g lower s.stack → lower.length < t.depth →
    StillCalled g lower t.stack) hstep (fun h _ => h) (fun _ => effect_stillCalled) (fun h _ => h) h hd

/-- Windows chained upward, no frame of the stack starts above the active one. -/
theorem base_le_head (hc : Chained (f :: callers)) (hg : g ∈ f :: callers) : g.base ≤ f.base := by
  induction callers generalizing f with
  | nil => rw [List.mem_singleton.1 hg]
  | cons c rest ih =>
    obtain rfl | hg := List.mem_cons.1 hg
    · exact Nat.le_refl _
    · have hbase : f.base = c.base + c.size := hc.1
      have hle := ih hc.2 hg
      omega

theorem base_le_of_stillCalled (hc : Chained (f :: callers)) (h : StillCalled g lower (f :: callers)) :
    g.base ≤ f.base := by
  obtain ⟨ip, hsuffix⟩ := h
  exact base_le_head (g := { g with ip := ip }) hc (hsuffix.subset List.mem_cons_self)

/-! ## Inside a call -/

/-- `u` lies inside the call of frame `g` over the frames `lower`, the call having been made from `s`:
nothing below the window of `g` has changed since. -/
structure InsideCall (s : State) (g : Frame) (lower : List Frame) (u : State) : Prop where
  inv : StackInv u
  called : StillCalled g lower u.stack
  below : ∀ k, k < g.base → u.slotAt k = s.slotAt k

/-- A step from inside a call that leaves more than the frames under the call stays inside. -/
theorem step_insideCall (h : InsideCall s0 g lower s) (hstep : step s = .next t)
    (hd : lower.length < t.depth) : InsideCall s0 g lower t := by
  have hinv := stepKeepsStackInvariant s t h.inv hstep
  have hcalled := step_stillCalled hstep h.called hd
  refine ⟨hinv, hcalled, fun k hk => ?_⟩
  obtain ⟨f, callers, ht⟩ := List.exists_cons_of_length_pos hinv.nonempty
  have hle : g.base ≤ f.base := base_le_of_stillCalled (ht ▸ hinv.chained) (ht ▸ hcalled)
  exact (step_slotAt_below hstep (g := f) (by rw [ht]; rfl) (by omega)).trans (h.below k hk)

theorem run_insideCall {n : Nat} (h : InsideCall s0 g lower s) (hrun : ReachedFrom s n t)
    (hd : ∀ m u, m ≤ n → ReachedFrom s m u → lower.length < u.depth) : InsideCall s0 g lower t := by
  induction n generalizing s with
  | zero => exact reachedFrom_zero.1 hrun ▸ h
  | succ n ih =>
    obtain ⟨u, hu, hrun⟩ := reachedFrom_succ.1 hrun
    have hdu := hd 1 u (by omega) (reachedFrom_succ.2 ⟨u, hu, reachedFrom_zero.2 rfl⟩)
    exact ih (step_insideCall h hu hdu) hrun
      fun m v hm hv => hd (m + 1) v (by omega) (reachedFrom_succ.2 ⟨u, hu, hv⟩)

/-- A completed `Call` enters its call. -/
theorem insideCall_afterCall (hs : s.stack = f :: callers)
    (hstep : step s = .next (afterCall s f n start e)) (hinv : StackInv s) :
    InsideCall s (calleeFrame f start e e.value.toInt) ({ f with ip := f.ip + 1 } :: callers)
      (afterCall s f n start e) where
  inv := stepKeepsStackInvariant _ _ hinv hstep
  called := ⟨_, by rw [afterCall_stack hs]⟩
  below k hk := step_slotAt_below hstep (by rw [afterCall_stack hs]; rfl) hk

/-- At the depth of the call itself the called frame is the active one. -/
theorem stack_of_insideCall (h : InsideCall s g lower u) (hd : u.depth = lower.length + 1) :
    ∃ ip, u.stack = { g with ip := ip } :: lower := by
  obtain ⟨ip, hsuffix⟩ := h.called
  exact ⟨ip, (hsuffix.eq_of_length (by rw [List.length_cons, ← hd, State.depth])).symm⟩

/-- Settles O44: the `Call` enters its call, the run stays inside, and the `Ret` at the call's own depth pops the
called frame, writing nothing but the destination registers. -/
theorem callThenRetRestoresCaller : Obligations.CallThenRetRestoresCaller := by
  intro s s1 s2 s3 f callers w w' N S K M R n hr hinv hs hw hcall hstep1 hr1 hrun hdepth hr2 hd2 hw' hret
    hstep3 hr3
  obtain ⟨e, rfl⟩ := afterCall_of_running hs ((step_of_decoded hr hs hw hcall).symm.trans hstep1) hr1
  rw [State.depth_of_stack hs] at hdepth hd2 ⊢
  have hinside := run_insideCall (insideCall_afterCall hs hstep1 hinv) hrun hdepth
  obtain ⟨ip, hs2⟩ := stack_of_insideCall hinside hd2
  rw [State.ip_of_stack hs2] at hw'
  obtain ⟨hdst, -, rfl⟩ := afterRet_of_running hs2 ((step_of_decoded hr2 hs2 hw' hret).symm.trans hstep3) hr3
  have hslots : ∀ k, State.slotAt (afterRet s2 _ _ M R) k =
      if f.base + S ≤ k ∧ k < f.base + S + M then s2.slotAt (f.base + f.size + R + (k - (f.base + S)))
      else s2.slotAt k := afterRet_slotAt rfl (fits_of_stackInv hinside.inv hs2) hdst R
  have hbelow : ∀ k, k < f.base + f.size → s2.slotAt k = s.slotAt k := hinside.below
  refine ⟨afterRet_stack hs2, State.depth_of_stack (afterRet_stack hs2), fun k hk => ?_, fun k hk => ?_⟩
  · have hiff : (f.base + S ≤ f.base + k ∧ f.base + k < f.base + S + M) ↔ (S ≤ k ∧ k < S + M) := by omega
    rw [hslots, hbelow (f.base + k) (by omega), Nat.add_sub_add_left]
    simp only [hiff]
  · rw [hslots, hbelow k (by omega), if_neg (by omega)]

end Sys2Proof.CallReturnProofs

/-! PROOFS of the family 60_exceptions.md: the order of the register instructions' checks, that a fault changes
nothing else, which faults an instruction can raise, and that a launched machine takes no decode fault. -/

namespace Sys2Proof.ExceptionProofs

open Sys2Proof Sys2Proof.Machine Sys2Proof.Safety Sys2Proof.StateProofs Sys2Proof.EncodingProofs
  Sys2Proof.DispatchProofs

variable {s t : State} {f : Frame} {callers : List Frame} {i : Instr} {w p q a j n : Nat} {k : FaultKind}
  {ks : List FaultKind} {op : Payload → Payload → Except FaultKind Slot}

/-! ## Which faults a check or a read raises -/

/-- `x` raises no fault but those of `ks`. -/
def RaisesOnly {α : Type} (ks : List FaultKind) (x : Except FaultKind α) : Prop := ∀ k, x = .error k → k ∈ ks

theorem raisesOnly_ok {α : Type} (x : α) : RaisesOnly ks (.ok x) := by rintro k ⟨⟩

theorem raisesOnly_raiseIf {c : Prop} [Decidable c] (hk : k ∈ ks) : RaisesOnly ks (raiseIf c k) := by
  intro k' h
  obtain ⟨-, rfl⟩ := raiseIf_error.1 h
  exact hk

theorem raisesOnly_raiseIf_pure {α : Type} {c : Prop} [Decidable c] {x : α} (hk : k ∈ ks) :
    RaisesOnly ks (raiseIf c k >>= fun _ => pure x) := by
  by_cases hc : c
  · rw [raiseIf_of hc]
    rintro k' ⟨⟩
    exact hk
  · rw [raiseIf_of_not hc]
    exact raisesOnly_ok x

theorem raisesOnly_chk : RaisesOnly (.indexFault :: ks) (chk f a) := raisesOnly_raiseIf List.mem_cons_self

theorem raisesOnly_readConst : RaisesOnly (.indexFault :: ks) (readConst s j) := by
  intro k h
  obtain ⟨-, rfl⟩ := readConst_error.1 h
  simp

theorem raisesOnly_constSlot {e : Const} : RaisesOnly (.indexFault :: .typeFault :: ks) (constSlot e) := by
  intro k h
  obtain ⟨-, rfl⟩ := constSlot_error.1 h
  simp

theorem raisesOnly_jumpValue {e : Const} : RaisesOnly (.indexFault :: .typeFault :: ks) (jumpValue e) := by
  intro k h
  obtain ⟨-, rfl⟩ := jumpValue_error.1 h
  simp

theorem raisesOnly_readInt : RaisesOnly (.indexFault :: .typeFault :: ks) (readInt s f a) := by
  intro k h
  obtain ⟨-, rfl⟩ | ⟨-, -, rfl⟩ := readInt_error.1 h <;> simp

theorem raisesOnly_readFloat : RaisesOnly (.indexFault :: .typeFault :: ks) (readFloat s f a) := by
  intro k h
  obtain ⟨-, rfl⟩ | ⟨-, -, rfl⟩ := readFloat_error.1 h <;> simp

theorem raisesOnly_readPrintable : RaisesOnly (.indexFault :: .typeFault :: ks) (readPrintable s f a) := by
  intro k h
  obtain ⟨-, rfl⟩ | ⟨-, -, -, rfl⟩ := readPrintable_error.1 h <;> simp

theorem raisesOnly_truth : RaisesOnly (.indexFault :: .typeFault :: ks) (truth s f a) := by
  intro k h
  obtain ⟨-, rfl⟩ | ⟨-, -, rfl⟩ := truth_error.1 h <;> simp

/-- Inside the window a typed read can only meet a wrong tag. -/
theorem raisesOnly_readInt_of_lt (ha : a < f.size) : RaisesOnly [.typeFault] (readInt s f a) := by
  intro k h
  obtain ⟨hge, -⟩ | ⟨-, -, rfl⟩ := readInt_error.1 h
  · exact absurd ha (Nat.not_lt.2 hge)
  · simp

theorem raisesOnly_readFloat_of_lt (ha : a < f.size) : RaisesOnly [.typeFault] (readFloat s f a) := by
  intro k h
  obtain ⟨hge, -⟩ | ⟨-, -, rfl⟩ := readFloat_error.1 h
  · exact absurd ha (Nat.not_lt.2 hge)
  · simp

/-! ## The order of the checks -/

/-- Of two stages in a row, the first of which can raise `k` alone, either may be the one that raises it. -/
theorem bind_eq_error {α β : Type} {x : Except FaultKind α} {g : α → Except FaultKind β} (hx : RaisesOnly [k] x)
    (h : x = .error k ∨ ∀ b, g b = .error k) : (x >>= g) = .error k := by
  cases x with
  | error k' =>
    obtain rfl := List.mem_singleton.1 (hx k' rfl)
    rfl
  | ok b => exact h.resolve_left (by simp) b

theorem chk_two_of_outside {α : Type} {rest : Unit → Except FaultKind α} (h : f.size ≤ p ∨ f.size ≤ q) :
    (chk f p >>= fun _ => chk f q >>= rest) = .error .indexFault :=
  bind_eq_error raisesOnly_chk (h.imp chk_of_ge fun hq _ => bind_eq_error raisesOnly_chk (.inl (chk_of_ge hq)))

theorem chk_three_of_outside {α : Type} {rest : Unit → Except FaultKind α}
    (h : f.size ≤ w ∨ f.size ≤ p ∨ f.size ≤ q) :
    (chk f w >>= fun _ => chk f p >>= fun _ => chk f q >>= rest) = .error .indexFault :=
  bind_eq_error raisesOnly_chk (h.imp chk_of_ge fun hpq _ => chk_two_of_outside hpq)

theorem chk_two_of_inside {α : Type} {rest : Unit → Except FaultKind α} (hp : p < f.size) (hq : q < f.size) :
    (chk f p >>= fun _ => chk f q >>= rest) = rest () := by
  rw [chk_of_lt hp, except_ok_bind, chk_of_lt hq, except_ok_bind]

theorem chk_three_of_inside {α : Type} {rest : Unit → Except FaultKind α} (hw : w < f.size) (hp : p < f.size)
    (hq : q < f.size) : (chk f w >>= fun _ => chk f p >>= fun _ => chk f q >>= rest) = rest () := by
  rw [chk_of_lt hw, except_ok_bind, chk_two_of_inside hp hq]

/-- A bad first tag faults before the second source is read, and a bad second tag is all a good first one
leaves. -/
theorem intBinary_of_tag (hs : s.stack = f :: callers) (hw : w < f.size) (hp : p < f.size) (hq : q < f.size)
    (h : (s.slotAt (f.base + p)).tag ≠ .int ∨ (s.slotAt (f.base + q)).tag ≠ .int) :
    intBinary w p q op s = .next (faulted s f callers .typeFault) :=
  attempt_of_error hs <| (chk_three_of_inside hw hp hq).trans <|
    bind_eq_error (raisesOnly_readInt_of_lt hp) <| h.imp (fun ht => readInt_error.2 (.inr ⟨hp, ht, rfl⟩))
      fun ht _ => bind_eq_error (raisesOnly_readInt_of_lt hq) (.inl (readInt_error.2 (.inr ⟨hq, ht, rfl⟩)))

theorem floatBinary_of_tag {after : State → State} (hs : s.stack = f :: callers) (hw : w < f.size)
    (hp : p < f.size) (hq : q < f.size)
    (h : (s.slotAt (f.base + p)).tag ≠ .float ∨ (s.slotAt (f.base + q)).tag ≠ .float) :
    floatBinary w p q op after s = .next (faulted s f callers .typeFault) :=
  attempt_of_error hs <| (chk_three_of_inside hw hp hq).trans <|
    bind_eq_error (raisesOnly_readFloat_of_lt hp) <| h.imp (fun ht => readFloat_error.2 (.inr ⟨hp, ht, rfl⟩))
      fun ht _ => bind_eq_error (raisesOnly_readFloat_of_lt hq) (.inl (readFloat_error.2 (.inr ⟨hq, ht, rfl⟩)))

theorem execNeg_of_tag (hs : s.stack = f :: callers) (hw : w < f.size) (hp : p < f.size)
    (h : (s.slotAt (f.base + p)).tag ≠ .int) : execNeg w p s = .next (faulted s f callers .typeFault) :=
  attempt_of_error hs <| (chk_two_of_inside hw hp).trans <|
    bind_eq_error (raisesOnly_readInt_of_lt hp) (.inl (readInt_error.2 (.inr ⟨hp, h, rfl⟩)))

/-- Settles O31: the bounds checks stand first and can raise only `IndexFault`; inside the window the typed
reads stand next and can raise only `TypeFault`. -/
theorem sourceFaultsComeInOrder : Obligations.SourceFaultsComeInOrder := by
  rintro s f callers w p q hs i tag (⟨rfl, hi⟩ | ⟨rfl, hi⟩ | ⟨rfl, rfl, rfl⟩)
  · obtain rfl | rfl | rfl | rfl | rfl | rfl := hi
    all_goals exact ⟨fun h => attempt_of_error hs (chk_three_of_outside h), intBinary_of_tag hs⟩
  · obtain rfl | rfl | rfl := hi
    all_goals exact ⟨fun h => attempt_of_error hs (chk_three_of_outside h), floatBinary_of_tag hs⟩
  · refine ⟨fun h => attempt_of_error hs (chk_two_of_outside ?_), fun hw hq _ h => ?_⟩
    · rwa [or_self] at h
    · exact execNeg_of_tag hs hw hq (or_self_iff.1 h)

/-! ## How an instruction leaves the dispatcher and the result -/

/-- From `s` to `t` no fault was taken: dispatcher and result are as they were, or the program ended. -/
def NoFaultTaken (s t : State) : Prop := (t.run = s.run ∧ t.result = s.result) ∨ ∃ vs, t = s.halt (.normal vs)

/-- A rule's answer takes no fault, and what it raises is one of `ks`. -/
def Answers (s : State) (ks : List FaultKind) (x : Except FaultKind State) : Prop :=
  RaisesOnly ks x ∧ ∀ t, x = .ok t → NoFaultTaken s t

theorem answers_ok (h : NoFaultTaken s t) : Answers s ks (.ok t) :=
  ⟨raisesOnly_ok t, by rintro _ ⟨⟩; exact h⟩

/-- A check or read in front of a rule adds its own faults alone. -/
theorem Answers.bind {α : Type} {x : Except FaultKind α} {g : α → Except FaultKind State}
    (hx : RaisesOnly ks x) (hg : ∀ b, Answers s ks (g b)) : Answers s ks (x >>= g) := by
  cases x with
  | error k => exact ⟨by rintro _ ⟨⟩; exact hx k rfl, by rintro _ ⟨⟩⟩
  | ok b => exact hg b

/-- The write that ends an instruction, with what follows it, leaves dispatcher and result alone. -/
theorem answers_writeReg_advance {r : Slot} {after : State → State}
    (hafter : ∀ u, (after u).run = u.run ∧ (after u).result = u.result) :
    Answers s (.indexFault :: ks) (writeReg s f a r >>= fun t => pure (after t).advance) := by
  by_cases ha : a < f.size
  · rw [writeReg_ok.2 ⟨ha, rfl⟩]
    exact answers_ok (.inl (hafter _))
  · rw [writeReg_error.2 ⟨Nat.not_lt.1 ha, rfl⟩]
    exact ⟨by rintro _ ⟨⟩; simp, by rintro _ ⟨⟩⟩

theorem answers_land {z : Int} : Answers s (.indexFault :: ks) (land s z) :=
  .bind (raisesOnly_raiseIf List.mem_cons_self) fun _ => answers_ok (.inl ⟨rfl, rfl⟩)

theorem answers_landIf {taken : Bool} {z : Int} : Answers s (.indexFault :: ks) (landIf s taken z) := by
  cases taken with
  | true => exact answers_land
  | false => exact answers_ok (.inl ⟨rfl, rfl⟩)

/-- From `s` the outcome `o` takes no fault but one of `ks`, and that is all a fault does. -/
def TakesOnly (s : State) (ks : List FaultKind) (o : Host.Outcome State Fault Refusal) : Prop :=
  ∀ t, o = .next t → NoFaultTaken s t ∨ ∃ k ∈ ks, t = raise k s

theorem takesOnly_attempt {rule : Frame → List Frame → Except FaultKind State}
    (h : ∀ f callers, Answers s ks (rule f callers)) : TakesOnly s ks (attempt s rule) := by
  intro t ht
  obtain ⟨f, callers, -, hok | ⟨k, herror, rfl⟩⟩ := attempt_next ht
  · exact .inl ((h f callers).2 t hok)
  · exact .inr ⟨k, (h f callers).1 k herror, rfl⟩

/-! ### The shared rules -/

theorem takesOnly_intBinary (hop : ∀ u v, RaisesOnly (.indexFault :: .typeFault :: ks) (op u v)) :
    TakesOnly s (.indexFault :: .typeFault :: ks) (intBinary w p q op s) :=
  takesOnly_attempt fun _ _ => .bind raisesOnly_chk fun _ => .bind raisesOnly_chk fun _ =>
    .bind raisesOnly_chk fun _ => .bind raisesOnly_readInt fun u => .bind raisesOnly_readInt fun v =>
      .bind (hop u v) fun _ => answers_writeReg_advance (after := id) fun _ => ⟨rfl, rfl⟩

theorem takesOnly_floatBinary {after : State → State}
    (hafter : ∀ u, (after u).run = u.run ∧ (after u).result = u.result)
    (hop : ∀ u v, RaisesOnly (.indexFault :: .typeFault :: ks) (op u v)) :
    TakesOnly s (.indexFault :: .typeFault :: ks) (floatBinary w p q op after s) :=
  takesOnly_attempt fun _ _ => .bind raisesOnly_chk fun _ => .bind raisesOnly_chk fun _ =>
    .bind raisesOnly_chk fun _ => .bind raisesOnly_readFloat fun u => .bind raisesOnly_readFloat fun v =>
      .bind (hop u v) fun _ => answers_writeReg_advance hafter

theorem takesOnly_jumpTo {target : Frame → Int} : TakesOnly s (.indexFault :: ks) (jumpTo target s) :=
  takesOnly_attempt fun _ _ => answers_land

theorem takesOnly_jumpToIf {when : Bool} {target : Frame → Int} :
    TakesOnly s (.indexFault :: .typeFault :: ks) (jumpToIf a when target s) :=
  takesOnly_attempt fun _ _ => .bind raisesOnly_truth fun _ => answers_landIf

theorem takesOnly_jumpConst {target : Frame → Int → Int} :
    TakesOnly s (.indexFault :: .typeFault :: ks) (jumpConst j target s) :=
  takesOnly_attempt fun _ _ => .bind raisesOnly_readConst fun _ => .bind raisesOnly_jumpValue fun _ => answers_land

theorem takesOnly_jumpConstIf {when : Bool} {target : Frame → Int → Int} :
    TakesOnly s (.indexFault :: .typeFault :: ks) (jumpConstIf a j when target s) :=
  takesOnly_attempt fun _ _ => .bind raisesOnly_chk fun _ => .bind raisesOnly_readConst fun _ =>
    .bind raisesOnly_truth fun _ => .bind raisesOnly_jumpValue fun _ => answers_landIf

theorem takesOnly_execCall {start func : Nat} :
    TakesOnly s [.indexFault, .typeFault, .stackOverflowFault] (execCall n start func s) :=
  takesOnly_attempt fun _ _ => .bind (raisesOnly_raiseIf (by simp)) fun _ => .bind raisesOnly_readConst fun _ =>
    .bind raisesOnly_jumpValue fun _ => .bind (raisesOnly_raiseIf (by simp)) fun _ =>
      .bind (raisesOnly_raiseIf (by simp)) fun _ => .bind (raisesOnly_raiseIf (by simp)) fun _ =>
        .bind (raisesOnly_raiseIf (by simp)) fun _ => answers_ok (.inl ⟨rfl, rfl⟩)

theorem takesOnly_execRet {start : Nat} : TakesOnly s [.indexFault] (execRet n start s) := by
  refine takesOnly_attempt fun f callers => ?_
  cases callers with
  | nil => exact .bind (raisesOnly_raiseIf (by simp)) fun _ => answers_ok (.inr ⟨_, rfl⟩)
  | cons c rest =>
    exact .bind (raisesOnly_raiseIf (by simp)) fun _ => .bind (raisesOnly_raiseIf (by simp)) fun _ =>
      .bind (raisesOnly_raiseIf (by simp)) fun _ => answers_ok (.inl ⟨rfl, rfl⟩)

/-- Every instruction takes no fault but one of its row of the table. -/
theorem exec_takesOnly (i : Instr) (s : State) : TakesOnly s (mayRaise i) (exec i s) := by
  cases i with
  | nop => exact takesOnly_attempt fun _ _ => answers_ok (s := s) (t := s.advance) (.inl ⟨rfl, rfl⟩)
  | print reg =>
    exact takesOnly_attempt fun _ _ => .bind raisesOnly_readPrintable fun _ => answers_ok (.inl ⟨rfl, rfl⟩)
  | load write index =>
    exact takesOnly_attempt fun _ _ => .bind raisesOnly_chk fun _ => .bind raisesOnly_readConst fun _ =>
      .bind raisesOnly_constSlot fun _ => answers_writeReg_advance (after := id) fun _ => ⟨rfl, rfl⟩
  | neg write reg2 =>
    exact takesOnly_attempt fun _ _ => .bind raisesOnly_chk fun _ => .bind raisesOnly_chk fun _ =>
      .bind raisesOnly_readInt fun _ => answers_writeReg_advance (after := id) fun _ => ⟨rfl, rfl⟩
  | add | sub | mult | lt => exact takesOnly_intBinary fun _ _ => raisesOnly_ok _
  | div | mod => exact takesOnly_intBinary fun _ _ => raisesOnly_raiseIf_pure (by simp)
  | fAdd => exact takesOnly_floatBinary (fun _ => ⟨rfl, rfl⟩) fun _ _ => raisesOnly_ok _
  | fDiv => exact takesOnly_floatBinary (fun _ => ⟨rfl, rfl⟩) fun _ _ => raisesOnly_raiseIf_pure (by simp)
  | fLt => exact takesOnly_floatBinary (fun _ => ⟨rfl, rfl⟩) fun _ _ => raisesOnly_ok _
  | jmp | rJmp => exact takesOnly_jumpTo
  | jmpT | jmpF | rJmpT | rJmpF => exact takesOnly_jumpToIf
  | jmpC | rJmpC => exact takesOnly_jumpConst
  | jmpTC | jmpFC | rJmpTC | rJmpFC => exact takesOnly_jumpConstIf
  | call => exact takesOnly_execCall
  | ret => exact takesOnly_execRet

/-- An instruction that halts a running machine with a fault took that fault, one of its row, and did nothing
else. -/
theorem exec_faulted {ip depth : Nat} (hr : s.run = .running) (h : exec i s = .next t) (ht : t.run = .halted)
    (hres : t.result = .fault k ip depth) : k ∈ mayRaise i ∧ t = raise k s := by
  obtain (⟨hrun, -⟩ | ⟨vs, rfl⟩) | ⟨k', hk', rfl⟩ := exec_takesOnly i s t h
  · cases (ht.symm.trans hrun).trans hr
  · cases hres
  · obtain ⟨rfl, -, -⟩ := Completion.fault.inj hres
    exact ⟨hk', rfl⟩

/-- Settles O45: the fault taken is `raise`, and its descriptor is the one found. -/
theorem faultsArePrecise : Obligations.FaultsArePrecise := by
  intro i s t k ip depth hr h ht hres
  obtain ⟨-, rfl⟩ := exec_faulted hr h ht hres
  obtain ⟨-, hip, hdepth⟩ := Completion.fault.inj hres
  exact ⟨hip.symm, hdepth.symm, rfl⟩

/-- Settles O46: each rule's checks raise only the kinds of its row. -/
theorem onlyTabledFaultsAreRaised : Obligations.OnlyTabledFaultsAreRaised :=
  fun _ _ _ _ _ _ hr h ht hres => (exec_faulted hr h ht hres).1

/-! ## The decode fault -/

/-- No row of the table holds the dispatcher's own fault. -/
theorem decodeFault_notMem_mayRaise (i : Instr) : FaultKind.decodeFault ∉ mayRaise i := by
  cases i <;> simp [mayRaise]

/-- A running step that halts with a decode fault did not decode its word. -/
theorem step_decodeFault {ip depth : Nat} (hr : s.run = .running) (h : step s = .next t) (ht : t.run = .halted)
    (hres : t.result = .fault .decodeFault ip depth) :
    ip = s.ip ∧ depth = s.depth ∧ ∃ w, s.code[s.ip]? = some w ∧ opcodeOf w ∉ assignedOpcodes := by
  obtain ⟨hhalted, -⟩ | ⟨-, f, callers, hs, hstep⟩ := step_next h
  · cases hr.symm.trans hhalted
  rw [← State.ip_of_stack hs] at hstep
  obtain ⟨-, rfl⟩ | ⟨w, hw, ⟨⟨e, he⟩, rfl⟩ | ⟨i, -, hexec⟩⟩ := hstep
  · cases hres
  · obtain ⟨-, hip, hdepth⟩ := Completion.fault.inj hres
    refine ⟨hip.symm, hdepth.symm, w, hw, fun ha => ?_⟩
    obtain ⟨i, hi⟩ := decode_of_assigned ha
    cases hi.symm.trans he
  · exact absurd (exec_faulted hr hexec ht hres).1 (decodeFault_notMem_mayRaise i)

theorem step_decodeFault_iff {ip depth : Nat} (hr : s.run = .running) (h : step s = .next t)
    (ht : t.run = .halted) : t.result = .fault .decodeFault ip depth ↔
      ip = s.ip ∧ depth = s.depth ∧ ∃ w, s.code[s.ip]? = some w ∧ opcodeOf w ∉ assignedOpcodes := by
  refine ⟨step_decodeFault hr h ht, ?_⟩
  rintro ⟨rfl, rfl, w, hw, hop⟩
  obtain ⟨hhalted, -⟩ | ⟨-, f, callers, hs, -⟩ := step_next h
  · cases hr.symm.trans hhalted
  rw [State.ip_of_stack hs] at hw ⊢
  rw [State.depth_of_stack hs]
  cases h.symm.trans (unknownOpcodeRaisesDecodeFault s f callers w hr hs hw hop)
  rfl

/-! ## What the load check lets pass -/

/-- Among the words that decode, the rejected ones are those whose constant index is beyond the pool. -/
theorem badWord_iff_of_decode {w : Word} (h : decode w = .ok i) :
    BadWord n w ↔ ∃ k, constIndex i = some k ∧ n ≤ k := by
  have ho := opcode_of_decode h
  rw [decode_of_opcode ho] at h
  rw [BadWord, ho]
  cases i with
  | load | jmpTC | jmpFC | rJmpTC | rJmpFC | jmpC | rJmpC | call =>
    dsimp only [Instr.opcode] at h
    cases h
    simp [Instr.opcode, assignedOpcodes, constIndex, fieldsOf, shapeOf, Fields.arg, Fields.b, Fields.c]
  | _ => simp [Instr.opcode, assignedOpcodes, constIndex]

theorem loadCheckWord_iff {w : Word} : loadCheckWord n w = true ↔ ¬BadWord n w := by
  by_cases ha : opcodeOf w ∈ assignedOpcodes
  · obtain ⟨i, hi⟩ := decode_of_assigned ha
    simp only [badWord_iff_of_decode hi, loadCheckWord, hi]
    cases constIndex i <;> simp
  · have hbad : BadWord n w := .inl ha
    simp [loadCheckWord, decode_of_unassigned ha, hbad]

theorem firstBadWord_eq_none {ws : List Word} (h : firstBadWord n ws a = none) : ∀ w ∈ ws, ¬BadWord n w := by
  induction ws generalizing a with
  | nil => simp
  | cons w ws ih =>
    rw [firstBadWord] at h
    split at h
    next hw => exact List.forall_mem_cons.2 ⟨loadCheckWord_iff.1 hw, ih h⟩
    next => cases h

theorem loadCheck_eq_none {code : List Word} {pool : List Const} (h : loadCheck code pool = none) :
    ∀ w ∈ code, ¬BadWord pool.length w := by
  cases code with
  | nil => simp
  | cons w ws => exact firstBadWord_eq_none h

/-- A launch gives the state of a failed load check, or the reset state of a unit that passed it. -/
theorem boot_cases {cfg : Config} {code : List Word} {pool : List Const} (h : boot cfg code pool = some s) :
    (∃ a, s = State.loadFailed cfg code pool a) ∨ (loadCheck code pool = none ∧ s = State.fresh cfg code pool) := by
  unfold boot at h
  split at h
  · split at h <;> cases h
    case h_1 a _ => exact .inl ⟨a, rfl⟩
    case h_2 hcheck => exact .inr ⟨hcheck, rfl⟩
  · cases h

/-! ## A launched machine -/

/-- No decode fault has been taken, and while the machine runs its store holds no rejected word. -/
structure CheckedUnit (s : State) : Prop where
  result : ∀ ip depth, s.result ≠ .fault .decodeFault ip depth
  code : s.run = .running → ∀ w ∈ s.code, ¬BadWord s.poolLen w

theorem boot_checkedUnit {cfg : Config} {code : List Word} {pool : List Const}
    (h : boot cfg code pool = some s) : CheckedUnit s := by
  obtain ⟨a, rfl⟩ | ⟨hcheck, rfl⟩ := boot_cases h
  · exact ⟨by simp [State.loadFailed], fun hr => by simp [State.loadFailed] at hr⟩
  · exact ⟨by simp [State.fresh], fun _ => loadCheck_eq_none hcheck⟩

/-- A running step leaves the result alone unless it halts. -/
theorem step_result (hr : s.run = .running) (h : step s = .next t) : t.result = s.result ∨ t.run = .halted := by
  obtain ⟨hhalted, -⟩ | ⟨-, f, callers, -, ⟨-, rfl⟩ | ⟨w, -, ⟨-, rfl⟩ | ⟨i, -, hexec⟩⟩⟩ := step_next h
  · cases hr.symm.trans hhalted
  · exact .inr rfl
  · exact .inr rfl
  · obtain (⟨-, hres⟩ | ⟨vs, rfl⟩) | ⟨k, -, rfl⟩ := exec_takesOnly i s t hexec
    · exact .inl hres
    · exact .inr rfl
    · exact .inr rfl

theorem step_checkedUnit (hc : CheckedUnit s) (h : step s = .next t) : CheckedUnit t := by
  cases hr : s.run with
  | halted =>
    rw [step_of_halted hr] at h
    cases h
    exact hc
  | running =>
    have hunit := unitAndConfigurationNeverChange s t h
    refine ⟨fun ip depth hres => ?_, fun _ => ?_⟩
    · obtain hkept | ht := step_result hr h
      · exact hc.result ip depth (hkept.symm.trans hres)
      · obtain ⟨-, -, w, hw, hop⟩ := step_decodeFault hr h ht hres
        exact hc.code hr w (List.mem_of_getElem? hw) (.inl hop)
    · rw [hunit.code, State.poolLen, hunit.pool]
      exact hc.code hr

/-- Settles O56: only the dispatcher raises a decode fault, on a word the load check would have rejected, and
the store of a launched machine holds none. -/
theorem loadedUnitNeverRaisesDecodeFault : Obligations.LoadedUnitNeverRaisesDecodeFault := by
  refine ⟨fun s t ip depth hr h ht => step_decodeFault_iff hr h ht, fun cfg code pool s0 t n hboot hrun => ?_⟩
  have hc := reachedFrom_induct (fun _ _ => step_checkedUnit) hrun (boot_checkedUnit hboot)
  exact ⟨hc.result, fun hr w hw => hc.code hr w (List.mem_of_getElem? hw)⟩

end Sys2Proof.ExceptionProofs

/-! PROOFS of the family 70_reset_and_hazards.md: when a launch exists, which word the load check reports, the
states a launch can give; and with them that reset has the invariants and that a halted machine stays as it is. -/

namespace Sys2Proof.LaunchProofs

open Sys2Proof Sys2Proof.Machine Sys2Proof.Safety Sys2Proof.StateProofs Sys2Proof.CallReturnProofs
  Sys2Proof.ExceptionProofs

variable {s : State} {cfg : Config} {code : List Word} {pool : List Const} {a n : Nat}

/-! ## What a launch gives -/

theorem launchable_iff : launchable cfg code pool = true ↔
    (cfg.entryWindow ≤ cfg.regfileSize ∧ 1 ≤ cfg.maxDepth) ∧ code.length < 2 ^ 63 ∧ pool.length ≤ 65536 := by
  simp only [launchable, Bool.and_eq_true, decide_eq_true_eq, and_assoc]

theorem boot_of_failed (hl : launchable cfg code pool = true) (hc : loadCheck code pool = some a) :
    boot cfg code pool = some (State.loadFailed cfg code pool a) := by
  rw [boot, if_pos hl, hc]

theorem boot_of_passed (hl : launchable cfg code pool = true) (hc : loadCheck code pool = none) :
    boot cfg code pool = some (State.fresh cfg code pool) := by
  rw [boot, if_pos hl, hc]

theorem boot_isSome_iff : (∃ s, boot cfg code pool = some s) ↔ launchable cfg code pool = true := by
  refine ⟨fun ⟨s, hs⟩ => ?_, fun hl => ?_⟩
  · by_contra hl
    rw [boot, if_neg hl] at hs
    cases hs
  · cases hc : loadCheck code pool with
    | none => exact ⟨_, boot_of_passed hl hc⟩
    | some a => exact ⟨_, boot_of_failed hl hc⟩

/-- Settles O10: `boot` asks for nothing but the premises, whether or not the load check passes. -/
theorem launchNeedsItsPremises : Obligations.LaunchNeedsItsPremises :=
  fun _ _ _ => boot_isSome_iff.trans launchable_iff

/-! ## The reset state -/

theorem slotAt_fresh (k : Nat) : (State.fresh cfg code pool).slotAt k = .invalid := by
  rw [State.slotAt, State.fresh, List.getD_eq_getElem?_getD, List.getElem?_getD_replicate_default_eq]

theorem vectorFree_fresh : VectorFree (State.fresh cfg code pool) where
  rf hmem := Slot.noConfusion (List.eq_of_mem_replicate hmem)
  out := List.not_mem_nil
  result _ hvs := Completion.normal.inj hvs ▸ List.not_mem_nil

/-- Settles O8: a launch whose check passes is `State.fresh`, whose fields are those named. -/
theorem launchGivesResetState : Obligations.LaunchGivesResetState := by
  intro cfg code pool hl hc
  exact ⟨_, Frame.outermost cfg.entryWindow, boot_of_passed hl hc, rfl, rfl, rfl, List.length_replicate,
    slotAt_fresh, rfl, rfl, rfl, rfl, rfl, rfl, rfl, rfl⟩

/-- Settles O53: `State.reset` is the reset state of a configuration whose entry window fits. -/
theorem resetHasInvariants : Obligations.ResetHasInvariants :=
  ⟨stackInv_fresh (by decide) (by decide), vectorFree_fresh⟩

/-! ## Which word the load check reports -/

/-- The scan is the library's search for the first element that fails the check, counted from `a`. -/
theorem firstBadWord_eq_findIdx? (n : Nat) (ws : List Word) (a : Nat) :
    firstBadWord n ws a = (ws.findIdx? fun w => !loadCheckWord n w).map (· + a) := by
  induction ws generalizing a with
  | nil => rfl
  | cons w ws ih =>
    cases hw : loadCheckWord n w
    · simp [firstBadWord, List.findIdx?_cons, hw]
    · simp [firstBadWord, List.findIdx?_cons, hw, ih, Function.comp_def, Nat.add_assoc, Nat.add_comm 1]

/-- The word at index `a` is the first one the load check rejects (70_reset_and_hazards.md R303). -/
def FirstBadAt (n : Nat) (ws : List Word) (a : Nat) : Prop :=
  ∃ w, ws[a]? = some w ∧ BadWord n w ∧ ∀ b w', b < a → ws[b]? = some w' → ¬BadWord n w'

theorem firstBadWord_eq_some_iff {ws : List Word} : firstBadWord n ws 0 = some a ↔ FirstBadAt n ws a := by
  have hbad (w : Word) : (!loadCheckWord n w) = true ↔ BadWord n w := by
    rw [Bool.not_eq_true', ← Bool.not_eq_true, loadCheckWord_iff, not_not]
  simp only [firstBadWord_eq_findIdx?, Nat.add_zero, Option.map_id', List.findIdx?_eq_some_iff_getElem, hbad]
  constructor
  · rintro ⟨ha, hw, hbefore⟩
    refine ⟨ws[a], List.getElem?_eq_getElem ha, hw, fun b w' hb hw' => ?_⟩
    obtain ⟨-, rfl⟩ := List.getElem?_eq_some_iff.1 hw'
    exact hbefore b hb
  · rintro ⟨w, hget, hw, hbefore⟩
    obtain ⟨ha, rfl⟩ := List.getElem?_eq_some_iff.1 hget
    exact ⟨ha, hw, fun b hb => hbefore b _ hb (List.getElem?_eq_getElem (hb.trans ha))⟩

theorem loadCheck_eq_some_iff :
    loadCheck code pool = some a ↔ (code = [] ∧ a = 0) ∨ FirstBadAt pool.length code a := by
  cases code with
  | nil => simp [loadCheck, FirstBadAt, eq_comm]
  | cons w ws => simp [loadCheck, firstBadWord_eq_some_iff]

/-- Settles O9: the scan reports the first rejected word, and a launch with a failed check is halted. -/
theorem loadCheckReportsFirstBadWord : Obligations.LoadCheckReportsFirstBadWord :=
  fun _ _ => ⟨fun _ => loadCheck_eq_some_iff, fun _ _ hl hc => ⟨_, boot_of_failed hl hc, rfl, rfl⟩⟩

/-! ## A halted machine -/

/-- Settles O14, by induction on the number of steps. -/
theorem haltedIsTerminal : Obligations.HaltedIsTerminal := by
  intro s n hs
  induction n with
  | zero => exact reachedFrom_zero.2 rfl
  | succ n ih => exact reachedFrom_succ.2 ⟨s, step_of_halted hs, ih⟩

end Sys2Proof.LaunchProofs
